-- ==== Sys2Proof/Word.lean ====
section
/-! DEFINITION. The words and index types of the MF-4120 model (00_scope, section 4 "Indexes" and "Counters"). -/

namespace Sys2Proof

/-- One octet of a frame. -/
abbrev Byte := BitVec 8

/-- A frame, or a part of one, as its octets in wire order. -/
abbrev Bytes := List Byte

/-- Lanes are numbered 0 to 3. -/
abbrev Lane := Fin 4

/-- Traffic classes are numbered 0 to 3. -/
abbrev Cls := Fin 4

/-- Contexts are numbered 0 to 1,023. -/
abbrev CtxIx := Fin 1024

/-- Key slots are numbered 0 to 2,303. -/
abbrev SlotIx := Fin 2304

/-- Selector entries are numbered 0 to 511. -/
abbrev SelIx := Fin 512

/-- KEK Table entries are numbered 0 to 3. -/
abbrev KekIx := Fin 4

/-- A context generation: a 16-bit count that wraps (R21). -/
abbrev Gen := BitVec 16

/-- A key phase, counted modulo 4 (R25). -/
abbrev Phase := BitVec 2

/-- A 256-bit key: a data key, a KEK or the management key. -/
abbrev Key := BitVec 256

/-- A 48-bit MAC address, its first byte most significant. -/
abbrev Mac := BitVec 48

/-- Reads row `i` of a fixed table. -/
@[reducible] def look {α : Type} {n : Nat} (t : Vector α n) (i : Fin n) : α := t[i.val]

/-- The table `t` with row `i` replaced by `x`. -/
def put {α : Type} {n : Nat} (t : Vector α n) (i : Fin n) (x : α) : Vector α n := t.set i.val x i.isLt

@[simp] theorem look_put_same {α : Type} {n : Nat} (t : Vector α n) (i : Fin n) (x : α) : look (put t i x) i = x := by
  simp [look, put]

theorem look_put_ne {α : Type} {n : Nat} (t : Vector α n) {i j : Fin n} (x : α) (h : j ≠ i) :
    look (put t i x) j = look t j := by
  have : i.val ≠ j.val := fun e => h (Fin.ext e.symm)
  simp [look, put, Vector.getElem_set_ne, this]

theorem look_put {α : Type} {n : Nat} (t : Vector α n) (i j : Fin n) (x : α) :
    look (put t i x) j = if j = i then x else look t j := by
  by_cases h : j = i
  · subst h; simp
  · simp [h, look_put_ne t x h]

/-- The table `t` with every row changed by `f`. It runs over the list of rows, so that the kernel can evaluate it. -/
def every {α : Type} {n : Nat} (f : α → α) (t : Vector α n) : Vector α n := ⟨⟨t.toList.map f⟩, by simp⟩

/-- The rows of a list changed by `f`, which also takes the row's number, the first being row `k`. -/
def everyFrom {α : Type} (f : Nat → α → α) (k : Nat) : List α → List α
  | [] => []
  | a :: l => f k a :: everyFrom f (k + 1) l

@[simp] theorem everyFrom_eq {α : Type} (f : Nat → α → α) (k : Nat) (l : List α) :
    everyFrom f k l = l.mapIdx (fun i => f (k + i)) := by
  induction l generalizing k with
  | nil => rfl
  | cons a l ih => simp [everyFrom, ih, Nat.add_comm, Nat.add_left_comm]

/-- The table `t` with every row changed by `f`, which also takes the row's number. -/
def everyAt {α : Type} {n : Nat} (f : Nat → α → α) (t : Vector α n) : Vector α n :=
  ⟨⟨everyFrom f 0 t.toList⟩, by simp⟩

@[simp] theorem look_every {α : Type} {n : Nat} (f : α → α) (t : Vector α n) (i : Fin n) :
    look (every f t) i = f (look t i) := by
  simp [look, every]

@[simp] theorem look_everyAt {α : Type} {n : Nat} (f : Nat → α → α) (t : Vector α n) (i : Fin n) :
    look (everyAt f t) i = f i.val (look t i) := by
  simp [look, everyAt]

end Sys2Proof
end

