-- ==== Sys2Proof/Syntax.lean ====
section
/-! DEFINITION. The commands of the MF-4120 model: one constructor for each row of spec/opcode_table.json.

A command is one event of the device, taken whole at the block that owns the state (00_scope, "Events"). The operands
say where the event is taken (a lane, a slot, a context) and what comes with it from outside (a frame, a strap, a link
report). The 29 station commands carry no operand: their bodies stand in the control frame that the Control Agent holds
as its command in progress (R153, R154). -/

namespace Sys2Proof

/-- How the reception of a frame ended, as the port reports it (R1, R162; assumption 9). -/
inductive RxEnding where
  /-- A valid end of frame, FCS good. -/
  | good
  /-- A valid end of frame, FCS not good. -/
  | badFcs
  /-- No valid end of frame: a coding error or loss of signal within the frame. -/
  | badEnd
deriving DecidableEq, Repr

/-- A frame whose reception has ended: all the octets received, the FCS among them, and how the reception ended. -/
structure RxFrame where
  octets : Bytes
  ending : RxEnding
deriving DecidableEq, Repr

/-- What causes a flush of a Cipher Lane (R116). -/
inductive FlushCause where
  | zeroize
  | restart
deriving DecidableEq, Repr

/-- The blocks that give a part of the device status record (R167). The Control Agent's own part is taken when the
command begins, so a snapshot event for it is never owed. -/
inductive StatusBlock where
  | keyStore
  | ageTimer
  | controlAgent
  | selector
  | noticeUnit
deriving DecidableEq, Repr

/-- The blocks of a lane that give a part of LANE_COUNTERS_READ (R172). -/
inductive LaneBlock where
  | trunkReceive
  | cipherLane
  | campusQueue
  | returnMerge
deriving DecidableEq, Repr

/-- The commands: one constructor per row of spec/opcode_table.json, in the table's order. -/
inductive Instr where
  | deviceReset (provLane : Lane) (mkOnce : Bool) (zeroizeAsserted : Bool)
  | trunkFrameTaken (lane : Lane) (rx : RxFrame)
  | selectorLookup (lane : Lane)
  | laneFrameTake (lane : Lane)
  | admissionRequest (lane : Lane)
  | passRecordCompletion (lane : Lane)
  | protectRecordCompletion (lane : Lane)
  | inFlightDecrease (slot : SlotIx) (ctx : CtxIx) (gen : Gen)
  | flushDropReport (n : Nat)
  | queueDropReport (n : Nat)
  | laneDropReport (n : Nat)
  | campusTransmitStart (lane : Lane)
  | campusTransmitEnd (lane : Lane)
  | campusLinkDown (lane : Lane)
  | campusLinkUp (lane : Lane)
  | unwrapJobStart
  | unwrapJobComplete
  | dataResult (n : Nat)
  | scrubComplete (slot : SlotIx)
  | referenceTick
  | countStep
  | ageTick
  | passStart
  | sweepVisit
  | commandBegin
  | identify
  | deviceStatusRead
  | statusSnapshot (block : StatusBlock)
  | mgmtKeySet
  | deviceAddressSet
  | envelopeTypeSet
  | timeBaseSet
  | sweepRangeSet
  | laneSet
  | laneCountersRead
  | laneSnapshot (block : LaneBlock)
  | datapathRestart
  | restartSelectorClear
  | laneFlush (lane : Lane) (cause : FlushCause)
  | restartContexts
  | restartJobDiscard
  | restartSlotScrub
  | restartCampusDiscard (lane : Lane)
  | restartAgeTimer
  | restartNoticeUnit
  | restartSlotsFreeReport
  | noticeRouteSet
  | noticeEnableSet
  | attentionClear
  | selectorWrite
  | selectorInvalidate
  | selectorRead
  | defaultActionSet
  | contextDefine
  | contextModify
  | contextClear
  | contextRead
  | contextFlag
  | contextCountersRead
  | kekLoad
  | kekErase
  | keyLoad
  | nextDiscard
  | switchRequest
  | groupSwitch
  | groupSwitchRequest (ctx : CtxIx)
  | keyStoreZeroize
  | contextZeroize
  | ageTimerZeroize
  | agentZeroize
  | jobDiscardReport (n : Nat)
  | zeroizeRelease
  | campusFrameReceived (lane : Lane) (rx : RxFrame)
  | trunkTransmitStart (lane : Lane)
  | trunkTransmitEnd (lane : Lane)
  | trunkLinkDown (lane : Lane)
  | trunkLinkUp (lane : Lane)
  | noticeDeparture
deriving DecidableEq, Repr

end Sys2Proof
end

