-- ==== Sys2Proof/Decode.lean ====
section
/-! DEFINITION. The command that a word spells. No row of spec/opcode_table.json carries bits, because the device fetches no
words: its commands are events, and the station's commands travel in control frames (assumption 27). -/

namespace Sys2Proof

/-- No word spells a command (assumption 27). -/
def decodeTableWord (_nbits _w : Nat) : Option Instr := none

end Sys2Proof
end

