-- ==== Sys2Proof/Config.lean ====
section
/-! DEFINITION. What the manual leaves open and the machine goes on with: free values with no body. -/

namespace Sys2Proof.Config

/-- FREE VALUE (assumption 11). The order of two entries that meet at one control output queue within one event, which
R161 and R192 leave open ("either may be taken first"). `true` means that the notice frame goes first. The argument is
the number of free values drawn before this one. Nothing constrains the value. -/
opaque noticeFirst : Nat → Bool

/-- FREE VALUE (assumption 29). Which of several sweep visits that are sent and not yet taken is taken next: one sent by an
abandoned pass may wait beside another and beside that of the RUNNING pass, and the spec states no order between them. The
value is taken modulo their number. The argument is the number of free values drawn before this one. Nothing constrains the
value. -/
opaque whichVisit : Nat → Nat

end Sys2Proof.Config
end

