-- ==== Sys2Proof/Machine/Crypto.lean ====
section
/-! DEFINITION. The cryptographic primitives the manual names: AES-256, AES-256 in Galois/counter mode, and the CMAC built
on AES. The manual states their inputs and where their outputs go (00_scope, "Cryptography"); the primitives themselves
are taken from the public standards of those names: FIPS 197, NIST SP 800-38D and NIST SP 800-38B (PRESUMED,
assumption 10). Octet strings are lists of bytes; a 16-octet block is a list of 16 bytes. -/

namespace Sys2Proof.Machine

/-! ## Octets and numbers -/

/-- The `n` octets of `v`, most significant first (R165, R112). -/
def octetsOf : Nat → Nat → Bytes
  | 0, _ => []
  | n + 1, v => BitVec.ofNat 8 (v / 256 ^ n) :: octetsOf n v

/-- The number that octets spell, most significant first. -/
def numOf (bs : Bytes) : Nat := bs.foldl (fun a b => a * 256 + b.toNat) 0

/-- The octets `off` to `off + len - 1`. -/
def slice (bs : Bytes) (off len : Nat) : Bytes := (bs.drop off).take len

/-- The field of `len` octets at offset `off`, most significant octet first. -/
def field (bs : Bytes) (off len : Nat) : Nat := numOf (slice bs off len)

/-- Exclusive-or of two octet strings, as long as the shorter. -/
def xorBytes (a b : Bytes) : Bytes := List.zipWith (· ^^^ ·) a b

/-- `n` zero octets. -/
def zeros (n : Nat) : Bytes := List.replicate n 0#8

/-- The octets of a key. -/
def keyBytes (k : Key) : Bytes := octetsOf 32 k.toNat

/-- The key that 32 octets spell. -/
def keyOf (bs : Bytes) : Key := BitVec.ofNat 256 (numOf bs)

/-! ## AES-256 (FIPS 197) -/

/-- The AES S-box: row `x` holds the substitutes of 16x to 16x + 15, the first one most significant (FIPS 197,
section 5.1.1). -/
def sBox : List Nat :=
  [0x637c777bf26b6fc53001672bfed7ab76, 0xca82c97dfa5947f0add4a2af9ca472c0,
   0xb7fd9326363ff7cc34a5e5f171d83115, 0x04c723c31896059a071280e2eb27b275,
   0x09832c1a1b6e5aa0523bd6b329e32f84, 0x53d100ed20fcb15b6acbbe394a4c58cf,
   0xd0efaafb434d338545f9027f503c9fa8, 0x51a3408f929d38f5bcb6da2110fff3d2,
   0xcd0c13ec5f974417c4a77e3d645d1973, 0x60814fdc222a908846eeb814de5e0bdb,
   0xe0323a0a4906245cc2d3ac629195e479, 0xe7c8376d8dd54ea96c56f4ea657aae08,
   0xba78252e1ca6b4c6e8dd741f4bbd8b8a, 0x703eb5664803f60e613557b986c11d9e,
   0xe1f8981169d98e949b1e87e9ce5528df, 0x8ca1890dbfe6426841992d0fb054bb16]

/-- The inverse AES S-box, in the same form (FIPS 197, section 5.3.2). -/
def invSBox : List Nat :=
  [0x52096ad53036a538bf40a39e81f3d7fb, 0x7ce339829b2fff87348e4344c4dee9cb,
   0x547b9432a6c2233dee4c950b42fac34e, 0x082ea16628d924b2765ba2496d8bd125,
   0x72f8f66486689816d4a45ccc5d65b692, 0x6c704850fdedb9da5e154657a78d9d84,
   0x90d8ab008cbcd30af7e45805b8b34506, 0xd02c1e8fca3f0f02c1afbd0301138a6b,
   0x3a9111414f67dcea97f2cfcef0b4e673, 0x96ac7422e7ad3585e2f937e81c75df6e,
   0x47f11a711d29c5896fb7620eaa18be1b, 0xfc563e4bc6d279209adbc0fe78cd5af4,
   0x1fdda8338807c731b11210592780ec5f, 0x60517fa919b54a0d2de57a9f93c99cef,
   0xa0e03b4dae2af5b0c8ebbb3c83539961, 0x172b047eba77d626e169146355210c7d]

/-- The substitute of `n` in an S-box. -/
def substitute (box : List Nat) (n : Nat) : Byte := BitVec.ofNat 8 (box.getD (n / 16) 0 >>> (8 * (15 - n % 16)))

/-- SubBytes of one byte. -/
def subByte (b : Byte) : Byte := substitute sBox b.toNat

/-- InvSubBytes of one byte. -/
def invSubByte (b : Byte) : Byte := substitute invSBox b.toNat

/-- Multiplication by x in the AES field, of each of the four octets of a column. -/
def xtime (w : BitVec 32) : BitVec 32 := ((w &&& 0x7f7f7f7f#32) <<< 1) ^^^ (((w >>> 7) &&& 0x01010101#32) * 0x1b#32)

/-- Multiplication by the constant `c` (0 to 15) in the AES field, of each of the four octets of a column. -/
def gmul (c : Nat) (w : BitVec 32) : BitVec 32 :=
  let x2 := xtime w
  let x4 := xtime x2
  (if c.testBit 0 then w else 0#32) ^^^ (if c.testBit 1 then x2 else 0#32) ^^^ (if c.testBit 2 then x4 else 0#32) ^^^
    (if c.testBit 3 then xtime x4 else 0#32)

/-- The block whose octet `i` is octet `perm i` of `b`. -/
def permute (perm : List Nat) (b : Bytes) : Bytes := perm.map (fun i => b.getD i 0#8)

/-- ShiftRows, on the octets of the state in column order. -/
def shiftRows (b : Bytes) : Bytes := permute [0, 5, 10, 15, 4, 9, 14, 3, 8, 13, 2, 7, 12, 1, 6, 11] b

/-- InvShiftRows. -/
def invShiftRows (b : Bytes) : Bytes := permute [0, 13, 10, 7, 4, 1, 14, 11, 8, 5, 2, 15, 12, 9, 6, 3] b

/-- One column of MixColumns, with the coefficients `c` of its first row: octet `r` is the sum of `c j` times octet
`r + j`. -/
def mixColumn (c : List Nat) (col : Bytes) : Bytes :=
  let w := BitVec.ofNat 32 (numOf col)
  octetsOf 4 ([0, 1, 2, 3].foldl (fun acc j => acc ^^^ (gmul (c.getD j 0) w).rotateLeft (8 * j)) 0#32).toNat

/-- The four columns of a block, each mixed. -/
def mixWith (c : List Nat) (b : Bytes) : Bytes :=
  mixColumn c (slice b 0 4) ++ mixColumn c (slice b 4 4) ++ mixColumn c (slice b 8 4) ++ mixColumn c (slice b 12 4)

/-- MixColumns. -/
def mixColumns (b : Bytes) : Bytes := mixWith [2, 3, 1, 1] b

/-- InvMixColumns. -/
def invMixColumns (b : Bytes) : Bytes := mixWith [14, 11, 13, 9] b

/-- The round constants of the AES-256 key schedule. -/
def roundConstants : List Byte := [0x01#8, 0x02#8, 0x04#8, 0x08#8, 0x10#8, 0x20#8, 0x40#8]

/-- Word `i` of the key schedule from the words before it, newest first. -/
def nextWord (i : Nat) (back : List Bytes) : Bytes :=
  let temp := back.getD 0 []
  let used :=
    if i % 8 = 0 then
      xorBytes ((temp.drop 1 ++ temp.take 1).map subByte) [roundConstants.getD (i / 8 - 1) 0#8, 0#8, 0#8, 0#8]
    else if i % 8 = 4 then temp.map subByte
    else temp
  xorBytes (back.getD 7 []) used

/-- `n` more words of the key schedule, newest first. -/
def expandWords : Nat → Nat → List Bytes → List Bytes
  | 0, _, back => back
  | n + 1, i, back => expandWords n (i + 1) (nextWord i back :: back)

/-- The 60 words of the AES-256 key schedule, in order. -/
def keySchedule (key : Bytes) : List Bytes :=
  (expandWords 52 8 ([7, 6, 5, 4, 3, 2, 1, 0].map (fun i => slice key (4 * i) 4))).reverse

/-- The round keys of AES-256, as 15 blocks. -/
def roundKeys (key : Bytes) : List Bytes :=
  let ws := keySchedule key
  (List.range 15).map (fun r => ((ws.drop (4 * r)).take 4).flatten)

/-- The rounds of the cipher after the first key addition; the last one mixes no columns. -/
def cipherRounds : List Bytes → Bytes → Bytes
  | [], st => st
  | [k], st => xorBytes (shiftRows (st.map subByte)) k
  | k :: ks, st => cipherRounds ks (xorBytes (mixColumns (shiftRows (st.map subByte))) k)

/-- Encryption of one block with the round keys `rk`. -/
def encryptWith (rk : List Bytes) (block : Bytes) : Bytes :=
  match rk with
  | [] => block
  | k :: ks => cipherRounds ks (xorBytes block k)

/-- AES-256 encryption of one block. -/
def aesEncrypt (key : Key) (block : Bytes) : Bytes := encryptWith (roundKeys (keyBytes key)) block

/-- The rounds of the inverse cipher after the first key addition. -/
def invCipherRounds : List Bytes → Bytes → Bytes
  | [], st => st
  | [k], st => xorBytes ((invShiftRows st).map invSubByte) k
  | k :: ks, st => invCipherRounds ks (invMixColumns (xorBytes ((invShiftRows st).map invSubByte) k))

/-- AES-256 decryption of one block (R78). -/
def aesDecrypt (key : Key) (block : Bytes) : Bytes :=
  match (roundKeys (keyBytes key)).reverse with
  | [] => block
  | k :: ks => invCipherRounds ks (xorBytes block k)

/-! ## Galois/counter mode (SP 800-38D), with a 12-octet nonce and a 16-octet tag -/

/-- The product of two elements of the GCM field, over the bits of `x` from the most significant down. -/
def gfMul (x : BitVec 128) : Nat → BitVec 128 → BitVec 128 → BitVec 128
  | 0, _, z => z
  | n + 1, v, z =>
    gfMul x n (if v.getLsbD 0 then (v >>> 1) ^^^ (0xe1#128 <<< 120) else v >>> 1) (if x.getLsbD n then z ^^^ v else z)

/-- The octets padded with zeros to a whole number of 16-octet blocks. -/
def padBlocks (bs : Bytes) : Bytes := bs ++ zeros ((16 - bs.length % 16) % 16)

/-- The 16-octet blocks of `bs`; `n` bounds their number. -/
def blocksOf : Nat → Bytes → List Bytes
  | 0, _ => []
  | n + 1, bs => if bs.isEmpty then [] else bs.take 16 :: blocksOf n (bs.drop 16)

/-- GHASH of octets whose number is a multiple of 16, under the hash subkey `h`. -/
def ghash (h : BitVec 128) (bs : Bytes) : BitVec 128 :=
  (blocksOf bs.length bs).foldl (fun y b => gfMul (y ^^^ BitVec.ofNat 128 (numOf b)) 128 h 0#128) 0#128

/-- The counter-mode key stream for the blocks of a text, from counter value `ctr` on. -/
def counterMode (rk : List Bytes) (nonce : Bytes) : Nat → List Bytes → Bytes
  | _, [] => []
  | ctr, b :: bs => xorBytes b (encryptWith rk (nonce ++ octetsOf 4 ctr)) ++ counterMode rk nonce (ctr + 1) bs

/-- AES-256 in Galois/counter mode: the ciphertext and the 16-octet tag (R113). -/
def gcmEncrypt (key : Key) (nonce aad plain : Bytes) : Bytes × Bytes :=
  let rk := roundKeys (keyBytes key)
  let h := BitVec.ofNat 128 (numOf (encryptWith rk (zeros 16)))
  let ct := counterMode rk nonce 2 (blocksOf plain.length plain)
  let s := ghash h (padBlocks aad ++ padBlocks ct ++ octetsOf 8 (8 * aad.length) ++ octetsOf 8 (8 * ct.length))
  (ct, xorBytes (octetsOf 16 s.toNat) (encryptWith rk (nonce ++ octetsOf 4 1)))

/-! ## CMAC (SP 800-38B) -/

/-- Doubling of a CMAC subkey. -/
def cmacDouble (b : BitVec 128) : BitVec 128 := if b.getLsbD 127 then (b <<< 1) ^^^ 0x87#128 else b <<< 1

/-- The CMAC chain over the blocks of a message, the last of which may be short. -/
def cmacChain (rk : List Bytes) (k1 k2 : Bytes) : Bytes → List Bytes → Bytes
  | acc, [] => encryptWith rk (xorBytes acc (xorBytes (0x80#8 :: zeros 15) k2))
  | acc, [b] =>
    if b.length = 16 then encryptWith rk (xorBytes acc (xorBytes b k1))
    else encryptWith rk (xorBytes acc (xorBytes (b ++ 0x80#8 :: zeros (15 - b.length)) k2))
  | acc, b :: bs => cmacChain rk k1 k2 (encryptWith rk (xorBytes acc b)) bs

/-- The AES-256 CMAC of a message, 16 octets (R151, R156). -/
def cmac (key : Key) (msg : Bytes) : Bytes :=
  let rk := roundKeys (keyBytes key)
  let l := BitVec.ofNat 128 (numOf (encryptWith rk (zeros 16)))
  let k1 := cmacDouble l
  let k2 := cmacDouble k1
  cmacChain rk (octetsOf 16 k1.toNat) (octetsOf 16 k2.toNat) (zeros 16) (blocksOf msg.length msg)

/-! ## Key unwrapping (R78) -/

/-- Step `s` of the unwrap: the check word and the four key words before and after it (R78). -/
def unwrapStep (kek : Key) (s : Nat) (check : Bytes) (words : List Bytes) : Bytes × List Bytes :=
  let j := (s - 1) % 4
  let d := aesDecrypt kek (xorBytes check (octetsOf 8 s) ++ words.getD j [])
  (d.take 8, words.set j (d.drop 8))

/-- The steps from step `n` down to step 1. -/
def unwrapSteps (kek : Key) : Nat → Bytes → List Bytes → Bytes × List Bytes
  | 0, check, words => (check, words)
  | n + 1, check, words =>
    let r := unwrapStep kek (n + 1) check words
    unwrapSteps kek n r.1 r.2

/-- The unwrap of a 40-octet wrapped key: the key when the check word comes out as eight octets 0xA6 (R78). -/
def unwrapKey (kek : Key) (wrapped : Bytes) : Option Key :=
  let r := unwrapSteps kek 24 (slice wrapped 0 8) [slice wrapped 8 8, slice wrapped 16 8, slice wrapped 24 8, slice wrapped 32 8]
  if r.1 = List.replicate 8 0xA6#8 then some (keyOf r.2.flatten) else none

end Sys2Proof.Machine
end

