-- ==== Sys2Proof/Machine/State.lean ====
section
/-! DEFINITION. The state of the MF-4120: every register, buffer, queue, counter, mark and pin note of the spec, as plain
data, the state after device reset, and the reasons for which a step can stop.

Occupancies are not held beside the lists they measure: they are computed from them (assumption 28). Messages that the
spec lets wait between two blocks are held in `Transit` (assumption 12). -/

namespace Sys2Proof.Machine

/-- The device has no fault: no rule of the spec stops it on an event. Nothing raises this type; a command that the
spec refuses is answered with a status (safe). -/
inductive Fault
deriving DecidableEq, Repr

/-- The reasons for which a command is refused by the model. -/
inductive Refusal where
  /-- The command has no meaning yet. Raised only by an arm of `exec` (safe: the run stops). -/
  | notModelled (mnemonic : String)
deriving DecidableEq, Repr

/-- A set of 48-bit saturating counters with one sticky saturated mark (00_scope, "Counters"). -/
structure CounterSet (n : Nat) where
  vals : Vector Nat n
  sat  : Bool
deriving DecidableEq, Repr

/-! ## Trunk Receive (chapter 1) -/

/-- The lane receive counters, in the order of R7. -/
inductive RxCounter where
  | acceptedFrames | acceptedBytes | controlFrames | fcsErrors | lengthErrors | receiveOverruns
  | selectorDrops | defaultDrops | defaultPasses | passOversizeDrops | noContextDrops
deriving DecidableEq, Repr

/-- The action kept for the head frame once it has been looked up (R5, R12); a DROP frame does not stay at the head. -/
inductive HeadAction where
  /-- PASS with a class; the entry is absent when the action is the default action. -/
  | pass (cls : Cls) (entry : Option SelIx)
  /-- PROTECT under a context, selected by an entry. -/
  | protect (ctx : CtxIx) (entry : SelIx)
deriving DecidableEq, Repr

/-- Trunk Receive of one lane. -/
structure TrunkRx where
  /-- The receive buffer: data frames without FCS, in arrival order (R4). -/
  buffer     : List Bytes
  /-- The action of the frame at the head, once looked up (R5). -/
  headAction : Option HeadAction
  counters   : CounterSet 11
deriving DecidableEq, Repr

/-! ## Selector (chapter 1) -/

/-- The tag match of an entry (R9). -/
inductive TagMatch where
  | any
  | untagged
  | vlan (id : BitVec 12)
deriving DecidableEq, Repr

/-- The action of an entry (R9). -/
inductive SelAction where
  | drop
  | pass (cls : Cls)
  | protect (ctx : CtxIx)
deriving DecidableEq, Repr

/-- The default action: DROP, or PASS with a class (R12). -/
inductive DefaultAction where
  | drop
  | pass (cls : Cls)
deriving DecidableEq, Repr

/-- One entry of the Selector List (R9). -/
structure SelEntry where
  valid     : Bool
  /-- Bit n is lane n. -/
  lanes     : BitVec 4
  tagMatch  : TagMatch
  /-- Absent for ANY. -/
  priority  : Option (BitVec 3)
  address   : Mac
  prefixLen : Nat
  /-- Clear for EtherType ANY; the value is then held as written and not compared (R177). -/
  typeMatch : Bool
  etherType : BitVec 16
  action    : SelAction
  hits      : CounterSet 1
deriving DecidableEq, Repr

/-- The Selector. -/
structure Selector where
  entries  : Vector SelEntry 512
  default  : DefaultAction
deriving DecidableEq, Repr

/-! ## Context Table (chapters 2, 3 and 5) -/

/-- The four context states (R21). -/
inductive CtxState where
  | undefined | keyless | active | halted
deriving DecidableEq, Repr

/-- The condition of a next slot (R21). -/
inductive NextCond where
  | pending | ready
deriving DecidableEq, Repr

/-- The context options (R21). -/
structure CtxOptions where
  originLabel : Bool
  clearTag    : Bool
  autoRoll    : Bool
deriving DecidableEq, Repr

/-- The five threshold fields, in the order of R179. -/
structure Thresholds where
  pnSoft    : Nat
  blockSoft : Nat
  blockHard : Nat
  ageSoft   : Nat
  ageHard   : Nat
deriving DecidableEq, Repr

/-- The six counters of a context, in the order of R35. -/
inductive CtxCounter where
  | protectedFrames | protectedBytes | noKeyDrops | oversizeDrops | queueDrops | flushDrops
deriving DecidableEq, Repr

/-- One context record (R21). -/
structure Ctx where
  state         : CtxState
  generation    : Gen
  tag           : BitVec 32
  cls           : Cls
  options       : CtxOptions
  condition     : Fin 4
  group         : Fin 16
  thresholds    : Thresholds
  initialPhase  : Phase
  current       : Option SlotIx
  /-- The next slot and its condition, which is present exactly when the slot is. -/
  next          : Option (SlotIx × NextCond)
  phase         : Phase
  nextPn        : Nat
  blocks        : Nat
  age           : Nat
  softReached   : Bool
  switchPending : Bool
  /-- Attention flags, enables and owed marks, each a context flag set of R165. -/
  flags         : BitVec 8
  enables       : BitVec 8
  owed          : BitVec 8
  counters      : CounterSet 6
deriving DecidableEq, Repr

/-! ## Key Store (chapter 4) -/

/-- The six states of a key slot. -/
inductive SlotState where
  | free | unwrapping | ready | current | draining | scrubbing
deriving DecidableEq, Repr

/-- One key slot (R65). -/
structure Slot where
  state    : SlotState
  /-- Owner context and owner generation, or absent. -/
  owner    : Option (CtxIx × Gen)
  salt     : BitVec 32
  kek      : KekIx
  inFlight : Nat
  key      : Key
deriving DecidableEq, Repr

/-- An unwrap job (R76). A KEK or MK job names the command that waits on it (assumption 16). -/
inductive Job where
  | data (slot : SlotIx) (ctx : CtxIx) (gen : Gen) (wrapped : Bytes)
  | kek (entry : KekIx) (wrapped : Bytes) (cmd : Nat)
  | mk (wrapped : Bytes) (cmd : Nat)
deriving DecidableEq, Repr

/-- The job in the engine and the unwrapping key it captured at its start (R77). -/
structure Running where
  job : Job
  key : Key
deriving DecidableEq, Repr

/-- The causes of a failed job (R77, R78). -/
inductive UnwrapCause where
  | check | kekAbsent
deriving DecidableEq, Repr

/-- The target of a failed job (R82). -/
inductive FailTarget where
  | data (slot : SlotIx) (ctx : CtxIx) (gen : Gen)
  | kek (entry : KekIx)
  | mk
deriving DecidableEq, Repr

/-- The Key Store. The engine is BUSY exactly while a job is running. -/
structure KeyStore where
  slots       : Vector Slot 2304
  freeSlots   : Nat
  /-- A VALID entry holds its key; an EMPTY one is absent. -/
  keks        : Vector (Option Key) 4
  /-- The management key when SET; absent when UNSET. -/
  mgmtKey     : Option Key
  jobs        : List Job
  running     : Option Running
  lastFailure : Option (FailTarget × UnwrapCause)
  successes   : Nat
  failures    : Nat
  setAside    : Nat
  /-- The note that ZEROIZE_N is held. -/
  zeroizeHeld : Bool
deriving DecidableEq, Repr

/-! ## Cipher Lane (chapter 6) -/

/-- What the admission answer and the descriptor put into a PROTECT record (R108). -/
structure ProtectRec where
  frame       : Bytes
  entry       : SelIx
  ctx         : CtxIx
  gen         : Gen
  slot        : SlotIx
  pn          : Nat
  phase       : Phase
  tag         : BitVec 32
  cls         : Cls
  originLabel : Bool
  clearTag    : Bool
  lOut        : Nat
deriving DecidableEq, Repr

/-- A frame record, by its mark (R108, R116). L, the tagged mark and the VLAN id are read from the frame's octets. -/
inductive Rec where
  | pass (frame : Bytes) (cls : Cls)
  | reserved (frame : Bytes) (entry : SelIx) (ctx : CtxIx)
  | protect (r : ProtectRec)
  /-- A RESERVED record whose frame a flush has discarded. -/
  | flushed
deriving DecidableEq, Repr

/-- An admission request on its way to the Context Table (R54). -/
structure AdmissionReq where
  ctx    : CtxIx
  length : Nat
  tagged : Bool
  vlan   : BitVec 12
  entry  : SelIx
  limit  : Nat
deriving DecidableEq, Repr

/-- The Cipher Lane of one lane (R106). The outstanding mark is set exactly while a request is present. -/
structure CipherLane where
  recs       : List Rec
  request    : Option AdmissionReq
  flushDrops : CounterSet 1
deriving DecidableEq, Repr

/-! ## Campus Queue (chapter 7) -/

/-- A frame held by a Campus Queue. -/
structure CampusFrame where
  octets : Bytes
  lOut   : Nat
deriving DecidableEq, Repr

/-- The counters of a Campus Queue, in the order of R132. -/
inductive CampusCounter where
  | queueDrops (cls : Cls) | linkDownDrops | restartDiscards | transmittedFrames | transmittedBytes
deriving DecidableEq, Repr

/-- The Campus Queue of one lane (R121). The transmitter is SENDING exactly while a frame is in transmission. -/
structure CampusQueue where
  queues     : Vector (List CampusFrame) 4
  sending    : Option (Cls × CampusFrame)
  limits     : Vector Nat 4
  frameLimit : Nat
  linkUp     : Bool
  counters   : CounterSet 8
deriving DecidableEq, Repr

/-! ## Age Timer (chapter 8) -/

/-- A RUNNING pass. -/
structure Pass where
  increment : Nat
  start     : CtxIx
  stop      : CtxIx
  position  : CtxIx
deriving DecidableEq, Repr

/-- The Age Timer. It is IDLE exactly while no pass is present. -/
structure AgeTimer where
  enable      : Bool
  prescale    : Nat
  count       : Nat
  prescaleDiv : Nat
  countDiv    : Nat
  owed        : Nat
  sweepStart  : CtxIx
  sweepStop   : CtxIx
  pass        : Option Pass
  lostTicks   : Nat
deriving DecidableEq, Repr

/-! ## Control Agent (chapter 9) -/

/-- A control frame in intake (R148). The position of its control header is read from its octets. -/
structure IntakeFrame where
  lane  : Lane
  frame : Bytes
  auth  : Bool
deriving DecidableEq, Repr

/-- The seven intake counters, in the order of R151. -/
inductive AgentCounter where
  | taken | malformed | wrongLane | authFailures | overflows | zeroizeDiscards | executed
deriving DecidableEq, Repr

/-- The step of a Datapath Restart that the agent has issued (R173): the events of that step still to be taken. -/
inductive RestartStep where
  | selector
  | flush (left : List Lane)
  | contexts
  | jobs
  | slots
  | campus (left : List Lane)
  | age
  | notice
  /-- Step 8 has been taken; the Key Store's report ends the command. -/
  | report
deriving DecidableEq, Repr

/-- How far the command in progress has come. -/
inductive Stage where
  /-- Begun; not yet taken at its owner. A DEVICE_STATUS_READ holds the agent's own part from here on (R167). -/
  | begun (agentPart : Option Bytes)
  /-- DEVICE_STATUS_READ gathers its parts. -/
  | gatherStatus (keyStore ageTimer agent selector notice : Option Bytes)
  /-- LANE_COUNTERS_READ gathers its parts. -/
  | gatherLane (lane : Lane) (clear : Bool) (rx cipher campus merge : Option Bytes)
  /-- A KEK_LOAD or a ROLLING MGMT_KEY_SET waits for its job. -/
  | waitJob
  /-- A GROUP_SWITCH waits for the requests still to be taken. -/
  | groupSwitch (group : Fin 16) (hold : Bool) (left : List CtxIx) (switched pended missed : Nat)
  /-- A DATAPATH_RESTART, and whether the Key Store has reported that every slot is FREE. -/
  | restart (step : RestartStep) (slotsFree : Bool)
deriving DecidableEq, Repr

/-- The command in progress. -/
structure Command where
  lane   : Lane
  frame  : Bytes
  /-- Tells the command from earlier ones (assumption 16). -/
  serial : Nat
  stage  : Stage
deriving DecidableEq, Repr

/-- The Control Agent (R148). It is BUSY exactly while a command is in progress. -/
structure Agent where
  intake       : List IntakeFrame
  progress     : Option Command
  address      : Mac
  envelopeType : BitVec 16
  counters     : CounterSet 7
  /-- The number of commands begun (the model's own field, assumption 16). -/
  serial       : Nat
deriving DecidableEq, Repr

/-! ## Notice Unit (chapter 11) -/

/-- The eight context flags, in the order of the table of R38. -/
inductive CtxFlag where
  | keyWanted | nextReady | switched | halted | unwrapFailed | oversize | queueDrop | saturated
deriving DecidableEq, Repr

/-- The six device flags, in the order of R185. -/
inductive DevFlag where
  | authFail | sweepLag | poolLow | relayDrop | controlDrop | zeroized
deriving DecidableEq, Repr

/-- What a notice record is about: a context and its flag, or a device flag (R188). -/
inductive NoticeSource where
  | context (c : CtxIx) (flag : CtxFlag)
  | device (flag : DevFlag)
deriving DecidableEq, Repr

/-- The delivery field of a notice record (R188). -/
inductive Delivery where
  | direct | owed
deriving DecidableEq, Repr

/-- A notice record (R188). -/
structure NoticeRecord where
  source     : NoticeSource
  generation : Gen
  delivery   : Delivery
  state      : CtxState
  phase      : Phase
  nextPn     : Nat
  blocks     : Nat
  age        : Nat
  freeSlots  : Nat
deriving DecidableEq, Repr

/-- The notice route, when set. -/
structure NoticeRoute where
  lane    : Lane
  address : Mac
deriving DecidableEq, Repr

/-- The Notice Unit (R185). -/
structure NoticeUnit where
  /-- Device flags, enables and owed marks, each a device flag set of R165. -/
  flags    : BitVec 6
  enables  : BitVec 6
  owed     : BitVec 6
  master   : Bool
  queue    : List NoticeRecord
  route    : Option NoticeRoute
  sequence : BitVec 16
deriving DecidableEq, Repr

/-! ## Return Merge (chapter 9) -/

/-- A control-origin frame: a response, or a notice frame. -/
structure ControlFrame where
  octets : Bytes
  notice : Bool
deriving DecidableEq, Repr

/-- The frame in transmission at a trunk port. -/
inductive TrunkSend where
  | control (f : ControlFrame)
  | relayed (octets : Bytes)
deriving DecidableEq, Repr

/-- The counters of a Return Merge, in the order of R164. -/
inductive MergeCounter where
  | relayedFrames | relayDrops | relayErrors | controlSent | controlDiscards | noticeDiscards
deriving DecidableEq, Repr

/-- The Return Merge of one lane (R160). The transmitter is SENDING exactly while a frame is in transmission. -/
structure ReturnMerge where
  relay    : List Bytes
  control  : List ControlFrame
  reserved : Bool
  sending  : Option TrunkSend
  linkUp   : Bool
  counters : CounterSet 6
deriving DecidableEq, Repr

/-! ## Messages between blocks (assumption 12) -/

/-- The outcome of a DATA job. -/
inductive UnwrapOutcome where
  | success
  | failure (cause : UnwrapCause)
deriving DecidableEq, Repr

/-- The result of a DATA job on its way to the Context Table (R79). -/
structure DataResult where
  slot    : SlotIx
  ctx     : CtxIx
  gen     : Gen
  outcome : UnwrapOutcome
deriving DecidableEq, Repr

/-- A flush-drop report (R33), and whether it comes from the flush of a restart's second step (R119). -/
structure FlushReport where
  ctx     : CtxIx
  gen     : Gen
  restart : Bool
deriving DecidableEq, Repr

/-- The drops that a Cipher Lane reports to its Trunk Receive (R7). -/
inductive LaneDrop where
  | passOversize | noContext
deriving DecidableEq, Repr

/-- Messages made and not yet taken, oldest first. -/
structure Transit where
  results        : List DataResult
  flushReports   : List FlushReport
  /-- Queue-drop reports: context index and generation (R123). -/
  queueReports   : List (CtxIx × Gen)
  laneReports    : List (Lane × LaneDrop)
  /-- Reports that a KEK or MK job was discarded, naming the command that waits on it (R83). -/
  discardReports : List Nat
  /-- Sweep visits that a pass had sent when it was abandoned: context index and increment (R141, R145, R146). -/
  visits         : List (CtxIx × Nat)
deriving DecidableEq, Repr

/-! ## The whole device -/

/-- The state of the device. -/
structure State where
  rx       : Vector TrunkRx 4
  selector : Selector
  ctxs     : Vector Ctx 1024
  ks       : KeyStore
  cipher   : Vector CipherLane 4
  campus   : Vector CampusQueue 4
  age      : AgeTimer
  agent    : Agent
  notice   : NoticeUnit
  merge    : Vector ReturnMerge 4
  /-- PROVLANE[1:0] as sampled at the last device reset. -/
  provLane : Lane
  /-- MKONCE as sampled at the last device reset: high (ONCE) or low (ROLLING). -/
  mkOnce   : Bool
  transit  : Transit
  /-- How many free values have been drawn (the model's own field, assumptions 11 and 29). -/
  draws    : Nat
  /-- The commands waiting, first in first out (the model's own field, assumption 1). -/
  pending  : List Instr
deriving DecidableEq, Repr

/-! ## Reset values -/

/-- A counter set with every counter 0 and the mark clear. -/
def CounterSet.zero (n : Nat) : CounterSet n := ⟨Vector.replicate n 0, false⟩

/-- R8. -/
def TrunkRx.reset : TrunkRx := ⟨[], none, CounterSet.zero 11⟩

/-- R19; the EtherType value under ANY is assumption 17. -/
def SelEntry.reset : SelEntry :=
  { valid := false, lanes := 15#4, tagMatch := .any, priority := none, address := 0#48, prefixLen := 0,
    typeMatch := false, etherType := 0#16, action := .drop, hits := CounterSet.zero 1 }

/-- R19. -/
def Selector.reset : Selector := ⟨Vector.replicate 512 SelEntry.reset, .drop⟩

/-- The threshold fields after device reset (R40). -/
def Thresholds.reset : Thresholds := ⟨4294967295, 4294967295, 4294967295, 65535, 65535⟩

/-- R40. -/
def Ctx.reset : Ctx :=
  { state := .undefined, generation := 0#16, tag := 0#32, cls := 0, options := ⟨false, false, false⟩, condition := 0,
    group := 0, thresholds := Thresholds.reset, initialPhase := 0#2, current := none, next := none, phase := 0#2,
    nextPn := 0, blocks := 0, age := 0, softReached := false, switchPending := false, flags := 0#8, enables := 0#8,
    owed := 0#8, counters := CounterSet.zero 6 }

/-- R85. -/
def Slot.reset : Slot := ⟨.free, none, 0#32, 0, 0, 0#256⟩

/-- R85. -/
def KeyStore.reset : KeyStore :=
  { slots := Vector.replicate 2304 Slot.reset, freeSlots := 2304, keks := Vector.replicate 4 none, mgmtKey := none,
    jobs := [], running := none, lastFailure := none, successes := 0, failures := 0, setAside := 0,
    zeroizeHeld := false }

/-- R106. -/
def CipherLane.reset : CipherLane := ⟨[], none, CounterSet.zero 1⟩

/-- R133. -/
def CampusQueue.reset : CampusQueue :=
  { queues := Vector.replicate 4 [], sending := none, limits := Vector.replicate 4 262144, frameLimit := 9600,
    linkUp := false, counters := CounterSet.zero 8 }

/-- R144. -/
def AgeTimer.reset : AgeTimer :=
  { enable := true, prescale := 1000, count := 1000, prescaleDiv := 0, countDiv := 0, owed := 0, sweepStart := 0,
    sweepStop := 1023, pass := none, lostTicks := 0 }

/-- R148. -/
def Agent.reset : Agent :=
  { intake := [], progress := none, address := 0x0A0000000001#48, envelopeType := 0x9D4E#16,
    counters := CounterSet.zero 7, serial := 0 }

/-- R185. -/
def NoticeUnit.reset : NoticeUnit := ⟨0#6, 0#6, 0#6, false, [], none, 0#16⟩

/-- R160. -/
def ReturnMerge.reset : ReturnMerge := ⟨[], [], false, none, false, CounterSet.zero 6⟩

/-- Nothing in transit. The spec gives a device reset no effect on a message that is under way; the model loses every one
(assumption 12): results, reports of a discarded job, flush-drop reports, the queue-drop reports that a Campus Queue has sent
(beside R133), and the pass-oversize and no-context reports on their way to Trunk Receive (beside R8). A visit of a pass that
the reset abandons leaves no trace (R144). -/
def Transit.reset : Transit := ⟨[], [], [], [], [], []⟩

/-- The device after a reset that sampled the straps as PROVLANE 0 and MKONCE low (assumption 7). -/
def State.reset : State :=
  { rx := Vector.replicate 4 TrunkRx.reset, selector := Selector.reset, ctxs := Vector.replicate 1024 Ctx.reset,
    ks := KeyStore.reset, cipher := Vector.replicate 4 CipherLane.reset, campus := Vector.replicate 4 CampusQueue.reset,
    age := AgeTimer.reset, agent := Agent.reset, notice := NoticeUnit.reset,
    merge := Vector.replicate 4 ReturnMerge.reset, provLane := 0, mkOnce := false, transit := Transit.reset,
    draws := 0, pending := [] }

/-! ## Reading and replacing one block's state -/

/-- Trunk Receive of lane `l`. -/
abbrev State.rxOf (s : State) (l : Lane) : TrunkRx := look s.rx l
/-- The record of context `c`. -/
abbrev State.ctx (s : State) (c : CtxIx) : Ctx := look s.ctxs c
/-- Key slot `k`. -/
abbrev State.slot (s : State) (k : SlotIx) : Slot := look s.ks.slots k
/-- The Cipher Lane of lane `l`. -/
abbrev State.cipherOf (s : State) (l : Lane) : CipherLane := look s.cipher l
/-- The Campus Queue of lane `l`. -/
abbrev State.campusOf (s : State) (l : Lane) : CampusQueue := look s.campus l
/-- The Return Merge of lane `l`. -/
abbrev State.mergeOf (s : State) (l : Lane) : ReturnMerge := look s.merge l
/-- Selector entry `e`. -/
abbrev State.entry (s : State) (e : SelIx) : SelEntry := look s.selector.entries e

/-- Replaces Trunk Receive of lane `l`. -/
def State.setRx (s : State) (l : Lane) (x : TrunkRx) : State := { s with rx := put s.rx l x }
/-- Replaces the record of context `c`. -/
def State.setCtx (s : State) (c : CtxIx) (x : Ctx) : State := { s with ctxs := put s.ctxs c x }
/-- Replaces the Key Store. -/
def State.setKs (s : State) (x : KeyStore) : State := { s with ks := x }
/-- Replaces key slot `k`. -/
def State.setSlot (s : State) (k : SlotIx) (x : Slot) : State := s.setKs { s.ks with slots := put s.ks.slots k x }
/-- Replaces the Cipher Lane of lane `l`. -/
def State.setCipher (s : State) (l : Lane) (x : CipherLane) : State := { s with cipher := put s.cipher l x }
/-- Replaces the Campus Queue of lane `l`. -/
def State.setCampus (s : State) (l : Lane) (x : CampusQueue) : State := { s with campus := put s.campus l x }
/-- Replaces the Return Merge of lane `l`. -/
def State.setMerge (s : State) (l : Lane) (x : ReturnMerge) : State := { s with merge := put s.merge l x }
/-- Replaces the Selector. -/
def State.setSelector (s : State) (x : Selector) : State := { s with selector := x }
/-- Replaces Selector entry `e`. -/
def State.setEntry (s : State) (e : SelIx) (x : SelEntry) : State :=
  s.setSelector { s.selector with entries := put s.selector.entries e x }
/-- Replaces the Age Timer. -/
def State.setAge (s : State) (x : AgeTimer) : State := { s with age := x }
/-- Replaces the Control Agent. -/
def State.setAgent (s : State) (x : Agent) : State := { s with agent := x }
/-- Replaces the Notice Unit. -/
def State.setNotice (s : State) (x : NoticeUnit) : State := { s with notice := x }
/-- Replaces the messages in transit. -/
def State.setTransit (s : State) (x : Transit) : State := { s with transit := x }

end Sys2Proof.Machine
end

