-- ==== Sys2Proof/Machine/Operands.lean ====
section
/-! DEFINITION. The fixed sizes of the device, saturating counters, the fields of a received frame, the frame arithmetic
of a protected frame, the fields of a control frame, and the encodings of R165 and R195. -/

namespace Sys2Proof.Machine

/-! ## Sizes and limits -/

/-- The largest value of a 48-bit counter, 2^48 − 1. -/
def counterMax : Nat := 281474976710655
/-- The receive buffer of a lane (R4). -/
def rxBufferBytes : Nat := 262144
/-- The shared buffer of a Campus Queue (R121). -/
def campusBufferBytes : Nat := 1048576
/-- The Relay FIFO (R160). -/
def relayBytes : Nat := 65536
/-- The frame records of a Cipher Lane (R106). -/
def laneRecords : Nat := 32
/-- The places of a control output queue (R160). -/
def controlPlaces : Nat := 16
/-- The intake queue (R148). -/
def intakePlaces : Nat := 8
/-- The job queue (R76). -/
def jobPlaces : Nat := 8
/-- The Notice Queue (R185). -/
def noticePlaces : Nat := 64
/-- The number of key slots. -/
def slotCount : Nat := 2304
/-- POOL_LOW is raised below this number of FREE slots (R67). -/
def poolLowMark : Nat := 16
/-- The blocks of one unit of the block thresholds (R50). -/
def blockUnit : Nat := 65536
/-- The last packet number of a tenure (R44). -/
def lastPn : Nat := 4294967295
/-- The largest key age (R36). -/
def ageMax : Nat := 65535
/-- The most ticks that may be owed (R138). -/
def owedMax : Nat := 15
/-- The control type value (R3). -/
def controlType : Nat := 0x9D4F

/-! ## Saturating counters (00_scope, "Counters") -/

/-- A counter increased by `k`, holding its largest value. -/
def satAdd (c k : Nat) : Nat := min (c + k) counterMax

/-- The increase would carry the counter past its largest value. -/
def saturates (c k : Nat) : Bool := decide (counterMax < c + k)

/-- Counter `i` of the set increased by `k`; a saturation sets the mark. -/
def CounterSet.bump {n : Nat} (cs : CounterSet n) (i : Fin n) (k : Nat) : CounterSet n :=
  { vals := put cs.vals i (satAdd (look cs.vals i) k), sat := cs.sat || saturates (look cs.vals i) k }

/-- The place of a lane receive counter in the order of R7. -/
def RxCounter.ix : RxCounter → Fin 11
  | .acceptedFrames => 0
  | .acceptedBytes => 1
  | .controlFrames => 2
  | .fcsErrors => 3
  | .lengthErrors => 4
  | .receiveOverruns => 5
  | .selectorDrops => 6
  | .defaultDrops => 7
  | .defaultPasses => 8
  | .passOversizeDrops => 9
  | .noContextDrops => 10

/-- The place of a context counter in the order of R35. -/
def CtxCounter.ix : CtxCounter → Fin 6
  | .protectedFrames => 0
  | .protectedBytes => 1
  | .noKeyDrops => 2
  | .oversizeDrops => 3
  | .queueDrops => 4
  | .flushDrops => 5

/-- The place of a Campus Queue counter in the order of R132. -/
def CampusCounter.ix : CampusCounter → Fin 8
  | .queueDrops 0 => 0
  | .queueDrops 1 => 1
  | .queueDrops 2 => 2
  | .queueDrops 3 => 3
  | .linkDownDrops => 4
  | .restartDiscards => 5
  | .transmittedFrames => 6
  | .transmittedBytes => 7

/-- The place of an intake counter in the order of R151. -/
def AgentCounter.ix : AgentCounter → Fin 7
  | .taken => 0
  | .malformed => 1
  | .wrongLane => 2
  | .authFailures => 3
  | .overflows => 4
  | .zeroizeDiscards => 5
  | .executed => 6

/-- The place of a Return Merge counter in the order of R164. -/
def MergeCounter.ix : MergeCounter → Fin 6
  | .relayedFrames => 0
  | .relayDrops => 1
  | .relayErrors => 2
  | .controlSent => 3
  | .controlDiscards => 4
  | .noticeDiscards => 5

/-- A lane receive counter increased by `k` (R7). -/
def TrunkRx.count (r : TrunkRx) (c : RxCounter) (k : Nat) : TrunkRx := { r with counters := r.counters.bump c.ix k }

/-- A Campus Queue counter increased by `k` (R132). -/
def CampusQueue.count (q : CampusQueue) (c : CampusCounter) (k : Nat) : CampusQueue :=
  { q with counters := q.counters.bump c.ix k }

/-- A Return Merge counter increased by `k` (R164). -/
def ReturnMerge.count (m : ReturnMerge) (c : MergeCounter) (k : Nat) : ReturnMerge :=
  { m with counters := m.counters.bump c.ix k }

/-- An intake counter increased by `k` (R151). -/
def Agent.count (a : Agent) (c : AgentCounter) (k : Nat) : Agent := { a with counters := a.counters.bump c.ix k }

/-! ## The fields of a frame (R1, R2) -/

/-- The length of a reception, FCS included, is one that R1 and R162 accept. -/
def rxLengthOk (rx : RxFrame) : Bool := decide (64 ≤ rx.octets.length) && decide (rx.octets.length ≤ 9216)

/-- The frame without its FCS. -/
def rxBody (rx : RxFrame) : Bytes := rx.octets.take (rx.octets.length - 4)

/-- The destination address. -/
def destOf (f : Bytes) : Mac := BitVec.ofNat 48 (field f 0 6)

/-- The source address. -/
def sourceOf (f : Bytes) : Mac := BitVec.ofNat 48 (field f 6 6)

/-- The tagged mark: an 802.1Q tag is recognised (R2). -/
def isTagged (f : Bytes) : Bool := field f 12 2 == 0x8100

/-- The VLAN id of the recognised tag; 0 when untagged (R2). -/
def vlanOf (f : Bytes) : BitVec 12 := if isTagged f then BitVec.ofNat 12 (field f 14 2) else 0#12

/-- The PCP of the recognised tag (R2). -/
def pcpOf (f : Bytes) : BitVec 3 := BitVec.ofNat 3 (field f 14 2 / 8192)

/-- The frame's own EtherType (R2). -/
def etherTypeOf (f : Bytes) : BitVec 16 := BitVec.ofNat 16 (field f (if isTagged f then 16 else 12) 2)

/-! ## Frame arithmetic of a protected frame (R45 to R47) -/

/-- ⌈x/16⌉. -/
def ceil16 (x : Nat) : Nat := (x + 15) / 16

/-- t, the clear-tag length. -/
def clearTagLen (tagged clearTag : Bool) : Nat := if tagged && clearTag then 4 else 0

/-- o, the origin-label length. -/
def originLen (originLabel : Bool) : Nat := if originLabel then 8 else 0

/-- P, the number of encrypted bytes. -/
def cipherLen (l t : Nat) : Nat := l - 12 - t

/-- A, the number of authenticated-only bytes. -/
def aadLen (t o : Nat) : Nat := 12 + t + 12 + o

/-- L_out = L + 28 + o (R46). -/
def outLen (l o : Nat) : Nat := l + 28 + o

/-- B, the block charge (R47). -/
def blockCharge (l t o : Nat) : Nat := ceil16 (cipherLen l t) + ceil16 (aadLen t o)

/-! ## Measures in the set of a condition code (R49) -/

/-- Blocks are in the set: codes 1 and 3. -/
def blocksInSet (code : Fin 4) : Bool := code == 1 || code == 3

/-- Age is in the set: codes 2 and 3. -/
def ageInSet (code : Fin 4) : Bool := code == 2 || code == 3

/-! ## The control header (R149, R195) -/

/-- The position of the control header: 14, or 18 behind a recognised tag (R3). -/
def headerAt (f : Bytes) : Nat := if isTagged f then 18 else 14

/-- The version field. -/
def ctlVersion (f : Bytes) : Nat := field f (headerAt f) 1
/-- The command code. -/
def ctlCode (f : Bytes) : Nat := field f (headerAt f + 1) 1
/-- The reply mark, bit 0 of the flags. -/
def ctlReply (f : Bytes) : Bool := (field f (headerAt f + 2) 1).testBit 0
/-- The request tag. -/
def ctlTag (f : Bytes) : Nat := field f (headerAt f + 4) 2
/-- The body length. -/
def ctlBodyLen (f : Bytes) : Nat := field f (headerAt f + 6) 2
/-- The body. -/
def ctlBody (f : Bytes) : Bytes := slice f (headerAt f + 8) (ctlBodyLen f)
/-- The control header and the body: the octets that the integrity tag covers. -/
def ctlCovered (f : Bytes) : Bytes := slice f (headerAt f) (8 + ctlBodyLen f)
/-- The integrity tag that follows the body. -/
def ctlIntegrity (f : Bytes) : Bytes := slice f (headerAt f + 8 + ctlBodyLen f) 16

/-- The form check of R149, with the version check of R195. -/
def ctlFormOk (f : Bytes) : Bool :=
  let need := headerAt f + 24 + ctlBodyLen f
  ctlVersion f == 1 && !ctlReply f && decide (ctlBodyLen f ≤ 1024) &&
    (f.length == need || (decide (need < 60) && f.length == 60))

/-! ## Statuses (R157, R195) -/

/-- The statuses that a response may carry. -/
inductive Status where
  | ok | okClamped | okPending | accepted | unwrapFail
  | badCode | badLength | badIndex | badValue | notProvisioned | keyLocked | zeroizeHeld
  | contextBusy | contextUndefined | nextOccupied | noSlot | queueFull
deriving DecidableEq, Repr

/-- The status codes of R195. -/
def Status.code : Status → Nat
  | .ok => 0
  | .okClamped => 1
  | .okPending => 2
  | .accepted => 3
  | .unwrapFail => 4
  | .badCode => 16
  | .badLength => 17
  | .badIndex => 18
  | .badValue => 19
  | .notProvisioned => 20
  | .keyLocked => 21
  | .zeroizeHeld => 22
  | .contextBusy => 23
  | .contextUndefined => 24
  | .nextOccupied => 25
  | .noSlot => 26
  | .queueFull => 27

/-! ## Encodings of R165 -/

/-- A yes/no field, a mark or a link state. -/
def boolOctet (b : Bool) : Bytes := [if b then 1#8 else 0#8]

/-- A counter or a key block count: 6 octets. -/
def counterOctets (c : Nat) : Bytes := octetsOf 6 c

/-- All counters of a set, in their order. -/
def CounterSet.octets {n : Nat} (cs : CounterSet n) : Bytes := (cs.vals.toList.map counterOctets).flatten

/-- Context state. -/
def CtxState.code : CtxState → Nat
  | .undefined => 0
  | .keyless => 1
  | .active => 2
  | .halted => 3

/-- Next condition: 0 absent, 1 PENDING, 2 READY. -/
def nextCode : Option (SlotIx × NextCond) → Nat
  | none => 0
  | some (_, .pending) => 1
  | some (_, .ready) => 2

/-- Slot index: 65,535 when absent. -/
def slotCode : Option SlotIx → Nat
  | none => 65535
  | some k => k.val

/-- Context options, one octet. -/
def CtxOptions.code (o : CtxOptions) : Nat :=
  (if o.originLabel then 1 else 0) + (if o.clearTag then 2 else 0) + (if o.autoRoll then 4 else 0)

/-- The options an octet of 0 to 7 stands for. -/
def optionsOf (v : Nat) : CtxOptions := ⟨v.testBit 0, v.testBit 1, v.testBit 2⟩

/-- Key-use marks, one octet. -/
def marksCode (r : Ctx) : Nat := (if r.softReached then 1 else 0) + (if r.switchPending then 2 else 0)

/-- Unwrap failure cause. -/
def UnwrapCause.code : UnwrapCause → Nat
  | .check => 1
  | .kekAbsent => 2

/-- The five thresholds: 16 octets. -/
def Thresholds.octets (t : Thresholds) : Bytes :=
  octetsOf 4 t.pnSoft ++ octetsOf 4 t.blockSoft ++ octetsOf 4 t.blockHard ++ octetsOf 2 t.ageSoft ++ octetsOf 2 t.ageHard

/-- The address as 6 octets. -/
def macOctets (a : Mac) : Bytes := octetsOf 6 a.toNat

/-- An index read from a body, when it is below `n`. -/
def indexOf (n v : Nat) : Option (Fin n) := if h : v < n then some ⟨v, h⟩ else none

end Sys2Proof.Machine
end

