-- ==== Sys2Proof/Machine/Flags.lean ====
section
/-! DEFINITION. Attention flags: their bits, a rise, and the notice record it makes (chapter 11, R38, R186 to R189). -/

namespace Sys2Proof.Machine

/-- The bit of a context flag in a context flag set (R165). -/
def CtxFlag.bit : CtxFlag → Nat
  | .keyWanted => 7
  | .nextReady => 6
  | .switched => 5
  | .halted => 4
  | .unwrapFailed => 3
  | .oversize => 2
  | .queueDrop => 1
  | .saturated => 0

/-- The context flags in the order of the table of R38. -/
def CtxFlag.all : List CtxFlag :=
  [.keyWanted, .nextReady, .switched, .halted, .unwrapFailed, .oversize, .queueDrop, .saturated]

/-- The bit of a device flag in a device flag set (R165). -/
def DevFlag.bit : DevFlag → Nat
  | .authFail => 5
  | .sweepLag => 4
  | .poolLow => 3
  | .relayDrop => 2
  | .controlDrop => 1
  | .zeroized => 0

/-- The device flags in the order of R189. -/
def DevFlag.all : List DevFlag := [.authFail, .sweepLag, .poolLow, .relayDrop, .controlDrop, .zeroized]

/-- Flag `i` of a set is set. -/
def hasFlag {n : Nat} (set : BitVec n) (i : Nat) : Bool := set.getLsbD i

/-- The set with flag `i` set. -/
def setFlag {n : Nat} (set : BitVec n) (i : Nat) : BitVec n := set ||| BitVec.twoPow n i

/-- The set with flag `i` clear. -/
def clearFlag {n : Nat} (set : BitVec n) (i : Nat) : BitVec n := set &&& ~~~ BitVec.twoPow n i

/-- Raises a context flag in its record. Whether that is a rise is decided at the end of the event (`reportRises`). -/
def Ctx.raise (r : Ctx) (f : CtxFlag) : Ctx := { r with flags := setFlag r.flags f.bit }

/-- The notice record for a source as the state stands now (R188). -/
def makeRecord (src : NoticeSource) (d : Delivery) (s : State) : NoticeRecord :=
  match src with
  | .context c _ =>
    let r := s.ctx c
    { source := src, generation := r.generation, delivery := d, state := r.state, phase := r.phase, nextPn := r.nextPn,
      blocks := r.blocks, age := r.age, freeSlots := s.ks.freeSlots }
  | .device _ =>
    { source := src, generation := 0#16, delivery := d, state := .undefined, phase := 0#2, nextPn := 0, blocks := 0,
      age := 0, freeSlots := s.ks.freeSlots }

/-- Places a record at the tail of the Notice Queue. -/
def queueRecord (n : NoticeRecord) (s : State) : State := s.setNotice { s.notice with queue := s.notice.queue ++ [n] }

/-- A context flag has risen (R187): a record, an owed mark, or neither. -/
def ctxRise (c : CtxIx) (f : CtxFlag) (s : State) : State :=
  if s.notice.master && hasFlag (s.ctx c).enables f.bit then
    if s.notice.queue.length < noticePlaces then queueRecord (makeRecord (.context c f) .direct s) s
    else s.setCtx c { s.ctx c with owed := setFlag (s.ctx c).owed f.bit }
  else s

/-- Reports the flags of context `c` that are set now and were clear in `before`, in the order of R38. -/
def reportFlags (c : CtxIx) (before : BitVec 8) : List CtxFlag → State → State
  | [], s => s
  | f :: fs, s =>
    reportFlags c before fs (if !hasFlag before f.bit && hasFlag (s.ctx c).flags f.bit then ctxRise c f s else s)

/-- The rises of context `c` in an event that began in `s₀` and has left `s` (R38, R187). -/
def reportRises (c : CtxIx) (s₀ s : State) : State := reportFlags c (s₀.ctx c).flags CtxFlag.all s

/-- Raises a device flag (R186); a rise is handled in the same event (R187). -/
def raiseDevice (f : DevFlag) (s : State) : State :=
  if hasFlag s.notice.flags f.bit then s
  else
    let s₁ := s.setNotice { s.notice with flags := setFlag s.notice.flags f.bit }
    if s₁.notice.master && hasFlag s₁.notice.enables f.bit then
      if s₁.notice.queue.length < noticePlaces then queueRecord (makeRecord (.device f) .direct s₁) s₁
      else s₁.setNotice { s₁.notice with owed := setFlag s₁.notice.owed f.bit }
    else s₁

/-- The first flag of a list whose bit is set in `set`. -/
def firstCtxFlag (set : BitVec 8) (fs : List CtxFlag) : Option CtxFlag := fs.find? (fun f => hasFlag set f.bit)

/-- The first context owed mark: contexts in increasing index order, and within one the order of R38 (R189). -/
def firstOwed : List Ctx → Nat → Option (Nat × CtxFlag)
  | [], _ => none
  | r :: rs, i =>
    match firstCtxFlag r.owed CtxFlag.all with
    | some f => some (i, f)
    | none => firstOwed rs (i + 1)

/-- Gives a freed place of the Notice Queue to the first owed mark, if any (R189). -/
def takeOwed (s : State) : State :=
  match DevFlag.all.find? (fun f => hasFlag s.notice.owed f.bit) with
  | some f =>
    let s₁ := s.setNotice { s.notice with owed := clearFlag s.notice.owed f.bit }
    queueRecord (makeRecord (.device f) .owed s₁) s₁
  | none =>
    match firstOwed s.ctxs.toList 0 with
    | none => s
    | some (i, f) =>
      match indexOf 1024 i with
      | none => s
      | some c =>
        let s₁ := s.setCtx c { s.ctx c with owed := clearFlag (s.ctx c).owed f.bit }
        queueRecord (makeRecord (.context c f) .owed s₁) s₁

/-! ## The notice record on the wire (R196) -/

/-- The flag field: the flag's single bit. -/
def NoticeSource.flagOctet : NoticeSource → Bytes
  | .context _ f => octetsOf 1 (2 ^ f.bit)
  | .device f => octetsOf 1 (2 ^ f.bit)

/-- The source field: the context index, or 65,535 for the device. -/
def NoticeSource.code : NoticeSource → Nat
  | .context c _ => c.val
  | .device _ => 65535

/-- The 22 octets of a notice record. -/
def NoticeRecord.octets (n : NoticeRecord) : Bytes :=
  octetsOf 2 n.source.code ++ octetsOf 2 n.generation.toNat ++ n.source.flagOctet ++
    octetsOf 1 (match n.delivery with | .direct => 0 | .owed => 1) ++ octetsOf 1 n.state.code ++
    octetsOf 1 n.phase.toNat ++ octetsOf 4 n.nextPn ++ octetsOf 6 n.blocks ++ octetsOf 2 n.age ++
    octetsOf 2 n.freeSlots

end Sys2Proof.Machine
end

