-- ==== Sys2Proof/Machine/Ops.lean ====
section
/-! DEFINITION. The shared operations: the Return Merge and its transmitter, notice departure, the Control Agent's responses
and its beginning of commands, key slots, key switching, frame records and unwrap jobs.

Where a rule says that an action starts "in the event at which the last of its conditions comes to hold", the operation that
brings that event about calls the start (assumption 3). -/

namespace Sys2Proof.Machine

/-! ## Return Merge (R160 to R164) -/

/-- The places of a control output queue in use: its frames, one in transmission from it, and the reservation (R161). -/
def placesUsed (m : ReturnMerge) : Nat :=
  m.control.length + (match m.sending with | some (.control _) => 1 | _ => 0) + (if m.reserved then 1 else 0)

/-- The control output queue has room (R161). -/
def hasRoom (m : ReturnMerge) : Bool := decide (placesUsed m < controlPlaces)

/-- The octets of a list of frames. -/
def octetCount (fs : List Bytes) : Nat := (fs.map List.length).sum

/-- The Relay FIFO occupancy: a frame in transmission is still counted (R163). -/
def relayOccupancy (m : ReturnMerge) : Nat :=
  octetCount m.relay + (match m.sending with | some (.relayed f) => f.length | _ => 0)

/-- Starts the next trunk transmission when the transmitter is IDLE, the link is UP and a frame waits (R163). -/
def mergeStart (m : ReturnMerge) : ReturnMerge :=
  if m.sending.isNone && m.linkUp then
    match m.control, m.relay with
    | f :: rest, _ => { m with control := rest, sending := some (.control f) }
    | [], f :: rest => { m with relay := rest, sending := some (.relayed f) }
    | [], [] => m
  else m

/-- Starts the next transmission of lane `l`. -/
def trunkStart (l : Lane) (s : State) : State := s.setMerge l (mergeStart (s.mergeOf l))

/-- A frame enters a control output queue at the tail (R161). -/
def mergeEnter (f : ControlFrame) (m : ReturnMerge) : ReturnMerge := mergeStart { m with control := m.control ++ [f] }

/-- A response enters its reserved place, or is discarded while the link is DOWN (R161, R164). -/
def mergeResponse (f : ControlFrame) (m : ReturnMerge) : ReturnMerge :=
  if m.linkUp then mergeEnter f { m with reserved := false }
  else { m with reserved := false }.count .controlDiscards 1

/-- The integrity tag of a frame the device builds (R156). -/
def integrityTag (key : Option Key) (covered : Bytes) : Bytes :=
  match key with
  | none => zeros 16
  | some k => cmac k covered

/-- Zero octets up to a length of 60 (R157, R191). -/
def padFrame (f : Bytes) : Bytes := f ++ zeros (60 - f.length)

/-- The control header written by the device (R195). -/
def controlHeader (code : Nat) (reply : Bool) (status tag bodyLen : Nat) : Bytes :=
  octetsOf 1 1 ++ octetsOf 1 code ++ boolOctet reply ++ octetsOf 1 status ++ octetsOf 2 tag ++ octetsOf 2 bodyLen

/-- A control-origin frame: addresses, the 802.1Q tag if any, EtherType, header and body, integrity tag, padding. -/
def controlFrame (s : State) (dest : Mac) (tag covered : Bytes) : Bytes :=
  padFrame (macOctets dest ++ macOctets s.agent.address ++ tag ++ octetsOf 2 controlType ++ covered ++
    integrityTag s.ks.mgmtKey covered)

/-! ## Notice departure (R190, R191) -/

/-- The notice frame of a record under a route (R191). -/
def noticeFrame (s : State) (r : NoticeRoute) (n : NoticeRecord) : Bytes :=
  controlFrame s r.address [] (controlHeader 0x7F false 0 s.notice.sequence.toNat n.octets.length ++ n.octets)

/-- The three conditions of R190 hold, so the head record may leave. -/
def noticeReady (s : State) : Bool :=
  match s.notice.route, s.notice.queue with
  | some r, _ :: _ => (s.mergeOf r.lane).linkUp && hasRoom (s.mergeOf r.lane)
  | _, _ => false

/-- The head record leaves as a notice frame, and its place goes to an owed mark (R189 to R191). -/
def depart (s : State) : State :=
  match s.notice.route, s.notice.queue with
  | some r, n :: rest =>
    if noticeReady s then
      let f : ControlFrame := ⟨noticeFrame s r n, true⟩
      let s₁ := s.setNotice { s.notice with queue := rest, sequence := s.notice.sequence + 1 }
      takeOwed (s₁.setMerge r.lane (mergeEnter f (s₁.mergeOf r.lane)))
    else s
  | _, _ => s

/-- The last of the conditions of R190 has come to hold in the event that began in `s₀`. -/
def noticeNew (s₀ s : State) : Bool := !noticeReady s₀ && noticeReady s

/-- The departure of the event at which the last condition of R190 comes to hold; further records leave in events of
their own. -/
def departNew (s₀ s : State) : State := if noticeNew s₀ s then depart s else s

/-! ## Responses (R157) -/

/-- The 802.1Q tag of a control frame as received, when one was recognised (R157). -/
def tagOctets (f : Bytes) : Bytes := if isTagged f then slice f 12 4 else []

/-- The response frame of a command (R157). -/
def responseFrame (s : State) (c : Command) (st : Status) (body : Bytes) : Bytes :=
  controlFrame s (sourceOf c.frame) (tagOctets c.frame)
    (controlHeader (ctlCode c.frame) true st.code (ctlTag c.frame) body.length ++ body)

/-- Builds the response, puts it into its reserved place and makes the agent IDLE (R157). -/
def respond (c : Command) (st : Status) (body : Bytes) (s : State) : State :=
  let f : ControlFrame := ⟨responseFrame s c st body, false⟩
  let s₁ := s.setMerge c.lane (mergeResponse f (s.mergeOf c.lane))
  s₁.setAgent (({ s₁.agent with progress := none } : Agent).count .executed 1)

/-! ## Beginning a command (R153, R154) -/

/-- The 29 command codes and the body length each requires (chapter 10). The length of MGMT_KEY_SET (0x03) depends on
the management key and is given by `requiredLen`. -/
def commandTable : List (Nat × Nat) :=
  [(0x01, 0), (0x02, 0), (0x03, 32), (0x04, 6), (0x05, 2), (0x06, 5), (0x07, 4), (0x08, 19), (0x09, 2), (0x0A, 0),
   (0x10, 7), (0x11, 2), (0x12, 3), (0x20, 20), (0x21, 2), (0x22, 3), (0x23, 2), (0x30, 28), (0x31, 25), (0x32, 2),
   (0x33, 2), (0x34, 4), (0x35, 3), (0x40, 41), (0x41, 1), (0x42, 47), (0x43, 2), (0x44, 2), (0x45, 2)]

/-- The code is one of the 29 command codes. -/
def isCommandCode (code : Nat) : Bool := commandTable.any (fun e => e.1 == code)

/-- The body length a command requires (R154, R168). -/
def requiredLen (s : State) (code : Nat) : Nat :=
  if code = 0x03 && s.ks.mgmtKey.isSome then 40
  else ((commandTable.find? (fun e => e.1 == code)).map Prod.snd).getD 0

/-- Checks 1 to 4 of R154; the first that fails gives the status. -/
def commonChecks (s : State) (code bodyLen : Nat) : Option Status :=
  if !isCommandCode code then some .badCode
  else if (code == 0x42 || code == 0x40 || code == 0x03) && s.ks.zeroizeHeld then some .zeroizeHeld
  else if s.ks.mgmtKey.isNone && code != 0x01 && code != 0x03 then some .notProvisioned
  else if code == 0x03 && s.ks.mgmtKey.isSome && s.mkOnce then none
  else if bodyLen != requiredLen s code then some .badLength
  else none

/-- The Control Agent's part of the device status record (R167, R197). -/
def agentPart (a : Agent) : Bytes :=
  boolOctet a.progress.isSome ++ octetsOf 1 a.intake.length ++ a.counters.octets ++ boolOctet a.counters.sat ++
    macOctets a.address ++ octetsOf 2 a.envelopeType.toNat

/-- The agent may begin the head of intake (R153): it is IDLE, the head is not one to be discarded, and the control output
queue of the head's lane has room. -/
def agentReady (s : State) : Bool :=
  s.agent.progress.isNone &&
    (match s.agent.intake with
     | [] => false
     | f :: _ => (f.auth || s.ks.mgmtKey.isNone) && hasRoom (s.mergeOf f.lane))

/-- The head of intake leaves, its response's place is reserved, and checks 1 to 4 are made: the command is refused, or it
becomes the command in progress (R153, R154; assumption 14). -/
def beginHead (s : State) : State :=
  match s.agent.intake with
  | [] => s
  | f :: rest =>
    let s₁ := (s.setAgent { s.agent with intake := rest, serial := s.agent.serial + 1 }).setMerge f.lane
      { s.mergeOf f.lane with reserved := true }
    let c : Command := ⟨f.lane, f.frame, s₁.agent.serial, .begun none⟩
    match commonChecks s (ctlCode f.frame) (ctlBodyLen f.frame) with
    | some st => respond c st [] s₁
    | none =>
      let a : Agent := { s₁.agent with progress := some c }
      if ctlCode f.frame = 0x02 then s₁.setAgent { a with progress := some { c with stage := .begun (some (agentPart a)) } }
      else s₁.setAgent a

/-- Discards the unauthenticated frames at the head of intake once the management key is SET (R153). -/
def purgeList : List IntakeFrame → State → State
  | [], s => s
  | f :: fs, s =>
    if !f.auth && s.ks.mgmtKey.isSome then
      purgeList fs (raiseDevice .authFail (s.setAgent (({ s.agent with intake := fs } : Agent).count .authFailures 1)))
    else s

/-- The IDLE agent examines the head of intake (R153). -/
def purge (s : State) : State := if s.agent.progress.isNone then purgeList s.agent.intake s else s

/-- The agent begins commands while it may; a refused command leaves it IDLE, so it goes on to the next in the same event
(R157). The number bounds the frames looked at. -/
def agentLoop : Nat → State → State
  | 0, s => s
  | n + 1, s => if agentReady (purge s) then agentLoop n (beginHead (purge s)) else purge s

/-- The agent begins what it may (R153). -/
def agentRun (s : State) : State := agentLoop (s.agent.intake.length + 1) s

/-- A notice frame's entry and the agent's reservation for the head of intake meet at one control output queue (R161). Which
comes first is assumption 11. -/
def meetAtOneQueue (s : State) : Bool :=
  match s.notice.route, s.agent.intake with
  | some r, f :: _ => r.lane == f.lane
  | _, _ => false

/-- Draws the next free value's place (assumptions 11 and 29). -/
def drawn (s : State) : State := { s with draws := s.draws + 1 }

/-- The end of an event that began in `s₀`, with at most `n` frames of intake still to be looked at. While the agent may begin
the head, a free value decides at each begin that meets the departure at its queue whether the notice frame enters first
(R161, R192; assumption 11); the record departs at the latest when the agent begins nothing more. Once it has departed, the agent
goes on without a further departure: an AUTH_FAIL record that then joins the Notice Queue it emptied stays there for
NOTICE_DEPARTURE (DESIGN CHOICE, assumption 30). -/
def endLoop : Nat → State → State → State
  | 0, s₀, s => departNew s₀ s
  | n + 1, s₀, s =>
    let s₁ := purge s
    if agentReady s₁ then
      if noticeNew s₀ s₁ && meetAtOneQueue s₁ then
        if Config.noticeFirst s₁.draws then agentRun (depart (drawn s₁)) else endLoop n s₀ (beginHead (drawn s₁))
      else endLoop n s₀ (beginHead s₁)
    else departNew s₀ s₁

/-- The end of an event that began in `s₀`: commands begin (R153) and a record departs (R190) when the event has made it
possible. When both want one queue, at whichever head of intake that is, the order is open (R161, R192), and a free value
decides it (assumption 11). -/
def settle (s₀ s : State) : State := endLoop (s.agent.intake.length + 1) s₀ s

/-- The route's lane is the lane `l`. -/
def routeIs (l : Lane) (s : State) : Bool :=
  match s.notice.route with
  | some r => r.lane == l
  | none => false

/-- Answers a command in the event that began in `s₀`. A notice frame of the same event that enters the same control
output queue has no stated order with the response; a free value decides it (assumption 11). Where the notice frame enters first,
the agent goes on as in `endLoop`, without a further departure in the event (DESIGN CHOICE, assumption 30). -/
def answer (s₀ : State) (c : Command) (st : Status) (body : Bytes) (s : State) : State :=
  if noticeNew s₀ s && routeIs c.lane s then
    if Config.noticeFirst s.draws then agentRun (respond c st body (depart (drawn s)))
    else settle s₀ (respond c st body (drawn s))
  else settle s₀ (respond c st body s)

/-- What a command does once it is taken at its owner (R155). -/
inductive Taken where
  /-- Refused with a status; nothing changes. -/
  | refuse (st : Status)
  /-- Ends in this event, with a status and a response body. -/
  | done (st : Status) (body : Bytes) (s : State)
  /-- Ends at a later event. -/
  | waits (stage : Stage) (s : State)

/-- The command in progress, when it is the one of this code and has begun and not been taken. -/
def begunCommand (code : Nat) (s : State) : Option Command :=
  match s.agent.progress with
  | none => none
  | some c =>
    match c.stage with
    | .begun _ => if ctlCode c.frame = code then some c else none
    | _ => none

/-- The command in progress with another stage. -/
def setStage (c : Command) (st : Stage) (s : State) : State :=
  s.setAgent { s.agent with progress := some { c with stage := st } }

/-- Takes the command of this code at its owner; where no such command waits to be taken, nothing changes
(assumption 2). -/
def takeCommand (code : Nat) (act : Command → State → Taken) (s : State) : State :=
  match begunCommand code s with
  | none => s
  | some c =>
    match act c s with
    | .refuse st => answer s c st [] s
    | .done st body s₁ => answer s c st body s₁
    | .waits stage s₁ => settle s (setStage c stage s₁)

/-! ## Key slots (R65 to R70) -/

/-- Starts a scrub: the key and the salt are zeroed, the KEK index is 0 and no frame is in flight (R68, R70). R70 gives the
zeroing 1 µs from this event; the model does all of it in the event itself (DESIGN CHOICE, assumption 31). -/
def startScrub (k : Slot) : Slot := { k with state := .scrubbing, key := 0#256, salt := 0#32, kek := 0, inFlight := 0 }

/-- The Key Store acts on a request that carries this context and generation (R68). -/
def slotAccepts (k : Slot) (c : CtxIx) (g : Gen) : Bool :=
  k.owner == some (c, g) && k.state != .free && k.state != .scrubbing

/-- A request that reaches a slot (R68). -/
def slotRequest (k : SlotIx) (c : CtxIx) (g : Gen) (f : Slot → Slot) (s : State) : State :=
  if slotAccepts (s.slot k) c g then s.setSlot k (f (s.slot k)) else s

/-- A release by the owning context (R69). -/
def releaseSlot (k : Slot) : Slot :=
  match k.state with
  | .current => if k.inFlight = 0 then startScrub k else { k with state := .draining }
  | .ready => startScrub k
  | _ => k

/-- A decrease of the in-flight count (R68). -/
def decreaseSlot (k : Slot) : Slot :=
  match k.inFlight with
  | 0 => k
  | n + 1 => if n = 0 && k.state == .draining then startScrub k else { k with inFlight := n }

/-- An increase of the in-flight count (R57, R68). -/
def increaseSlot (k : Slot) : Slot := { k with inFlight := k.inFlight + 1 }

/-- The move from READY to CURRENT at a switch (R89). -/
def makeCurrent (k : Slot) : Slot := if k.state = .ready then { k with state := .current } else k

/-- Releases a reference of context `c`, if it holds one. -/
def releaseRef (k : Option SlotIx) (c : CtxIx) (g : Gen) (s : State) : State :=
  match k with
  | none => s
  | some k => slotRequest k c g releaseSlot s

/-- A context of the record `r` names slot `i` as its current or next slot. -/
def refersTo (r : Ctx) (i : Nat) : Bool :=
  (r.current.map Fin.val == some i) || ((r.next.map Prod.fst).map Fin.val == some i)

/-- The release that reaches slot `i` when every context of `reached` releases its current and next slot in one event
(R68, R69). -/
def releaseNamed (reached : Ctx → Bool) (s : State) (i : Nat) (k : Slot) : Slot :=
  match k.owner with
  | none => k
  | some (c, g) =>
    if reached (s.ctx c) && (s.ctx c).generation == g && refersTo (s.ctx c) i && slotAccepts k c g then releaseSlot k else k

/-- Every context of `reached` releases its current and next slot (R68, R69). -/
def releaseAll (reached : Ctx → Bool) (s : State) : State :=
  s.setKs { s.ks with slots := everyAt (releaseNamed reached s) s.ks.slots }

/-- The index of the first FREE slot of a list that starts at index `i` (R66). -/
def firstFree : List Slot → Nat → Option Nat
  | [], _ => none
  | k :: ks, i => if k.state = .free then some i else firstFree ks (i + 1)

/-- The lowest-numbered FREE slot. -/
def lowestFree (s : State) : Option SlotIx :=
  match firstFree s.ks.slots.toList 0 with
  | none => none
  | some i => indexOf 2304 i

/-! ## Switching, soft crossings and hard events (R29, R52, R53, R88) -/

/-- The next slot is present with condition READY. -/
def nextReady (r : Ctx) : Bool :=
  match r.next with
  | some (_, .ready) => true
  | _ => false

/-- The record after a switch to slot `k` (R88, R90). -/
def switchedRecord (r : Ctx) (k : SlotIx) : Ctx :=
  { r with
    state := .active, current := some k, next := none,
    phase := if r.state = CtxState.keyless then r.initialPhase else r.phase + 1#2,
    nextPn := 1, blocks := 0, age := 0, softReached := false, switchPending := false }.raise .switched

/-- The switch (R88, R89); without a READY next slot it does nothing. -/
def switchCtx (c : CtxIx) (s : State) : State :=
  match (s.ctx c).next with
  | some (k, .ready) =>
    let r := s.ctx c
    let s₁ := slotRequest k c r.generation makeCurrent (releaseRef r.current c r.generation s)
    s₁.setCtx c (switchedRecord r k)
  | _ => s

/-- The record of a context that enters HALTED (R29). -/
def haltedRecord (r : Ctx) : Ctx :=
  (({ r with state := .halted, current := none, nextPn := 0 } : Ctx).raise .halted).raise .keyWanted

/-- Entry to HALTED (R29). -/
def enterHalted (c : CtxIx) (s : State) : State :=
  let r := s.ctx c
  (releaseRef r.current c r.generation s).setCtx c (haltedRecord r)

/-- A hard event (R53). -/
def hardEvent (c : CtxIx) (s : State) : State :=
  if nextReady (s.ctx c) then switchCtx c s else enterHalted c s

/-- A soft crossing (R52). -/
def softCrossing (c : CtxIx) (s : State) : State :=
  let r₁ : Ctx := { s.ctx c with softReached := true }
  let r₂ := if r₁.next.isNone then r₁.raise .keyWanted else r₁
  if r₂.options.autoRoll then
    let s₁ := s.setCtx c { r₂ with switchPending := true }
    if nextReady r₂ then switchCtx c s₁ else s₁
  else s.setCtx c r₂

/-- A context counter increased by `k`; each saturation raises SATURATED (R36). -/
def Ctx.count (r : Ctx) (n : CtxCounter) (k : Nat) : Ctx :=
  let r₁ : Ctx := { r with counters := r.counters.bump n.ix k }
  if saturates (look r.counters.vals n.ix) k then r₁.raise .saturated else r₁

/-- The key-use fields and references of a context that becomes UNDEFINED (R26). -/
def undefinedRecord (r : Ctx) : Ctx :=
  { r with state := .undefined, current := none, next := none, phase := 0#2, nextPn := 0, blocks := 0, age := 0,
           softReached := false, switchPending := false }

/-- Gives up the next slot of a context at the Key Store: a READY slot is scrubbed, an UNWRAPPING one left to its job
(R69). -/
def releaseNext (c : CtxIx) (s : State) : State :=
  let r := s.ctx c
  releaseRef (r.next.map Prod.fst) c r.generation s

/-! ## Taking a frame into a Cipher Lane (R107) -/

/-- Sends a message to Trunk Receive about a drop of lane `l` (R7). -/
def reportLaneDrop (l : Lane) (d : LaneDrop) (s : State) : State :=
  s.setTransit { s.transit with laneReports := s.transit.laneReports ++ [(l, d)] }

/-- The conditions of R107 hold at lane `l`. -/
def takeReady (l : Lane) (s : State) : Bool :=
  (s.rxOf l).headAction.isSome && !(s.rxOf l).buffer.isEmpty &&
    decide ((s.cipherOf l).recs.length < laneRecords) && (s.cipherOf l).request.isNone

/-- The lane takes the head frame of its receive buffer when the conditions of R107 hold. -/
def laneTake (l : Lane) (s : State) : State :=
  if takeReady l s then
    match (s.rxOf l).headAction, (s.rxOf l).buffer with
    | some a, f :: rest =>
      let limit := (s.campusOf l).frameLimit
      let s₁ := s.setRx l { s.rxOf l with buffer := rest, headAction := none }
      let cl := s.cipherOf l
      match a with
      | .pass cls _ =>
        if limit < f.length + 4 then reportLaneDrop l .passOversize s₁
        else s₁.setCipher l { cl with recs := cl.recs ++ [.pass f cls] }
      | .protect c e =>
        s₁.setCipher l
          { cl with recs := cl.recs ++ [.reserved f e c],
                    request := some ⟨c, f.length, isTagged f, vlanOf f, e, limit⟩ }
    | _, _ => s
  else s

/-- Sends a flush-drop report to the Context Table (R33). -/
def reportFlushDrop (c : CtxIx) (g : Gen) (restart : Bool) (s : State) : State :=
  s.setTransit { s.transit with flushReports := s.transit.flushReports ++ [⟨c, g, restart⟩] }

/-- The flush-drops counter of lane `l` increases by 1 (R111, R116, R117). -/
def countFlushDrop (l : Lane) (s : State) : State :=
  s.setCipher l { s.cipherOf l with flushDrops := (s.cipherOf l).flushDrops.bump 0 1 }

/-- An in-flight release (R68). -/
def releaseInFlight (k : SlotIx) (c : CtxIx) (g : Gen) (s : State) : State := slotRequest k c g decreaseSlot s

/-- What the discard of a PROTECT record does beside the record's removal (R111, R116). -/
def discardProtect (l : Lane) (k : SlotIx) (c : CtxIx) (g : Gen) (restart : Bool) (s : State) : State :=
  countFlushDrop l (reportFlushDrop c g restart (releaseInFlight k c g s))

/-! ## Campus Queue (R121 to R127) -/

/-- The L_out of the frames of a list. -/
def lOutSum (fs : List CampusFrame) : Nat := (fs.map CampusFrame.lOut).sum

/-- The occupancy of a class: its frames queued or in transmission (R121). -/
def classOccupancy (q : CampusQueue) (c : Cls) : Nat :=
  lOutSum (look q.queues c) + (match q.sending with | some (k, f) => if k = c then f.lOut else 0 | none => 0)

/-- The total occupancy: the sum of the four class occupancies (R121). -/
def totalOccupancy (q : CampusQueue) : Nat :=
  classOccupancy q 0 + classOccupancy q 1 + classOccupancy q 2 + classOccupancy q 3

/-- The highest-numbered class of a list, taken in order, whose queue holds a frame. -/
def firstClass (q : CampusQueue) : List Cls → Option (Cls × CampusFrame × List CampusFrame)
  | [] => none
  | c :: cs =>
    match look q.queues c with
    | f :: rest => some (c, f, rest)
    | [] => firstClass q cs

/-- Starts the next campus transmission when the transmitter is IDLE, the link is UP and a frame waits (R126). -/
def campusStart (q : CampusQueue) : CampusQueue :=
  if q.sending.isNone && q.linkUp then
    match firstClass q [3, 2, 1, 0] with
    | some (c, f, rest) => { q with queues := put q.queues c rest, sending := some (c, f) }
    | none => q
  else q

/-- Both admission tests of R122 pass. -/
def campusFits (q : CampusQueue) (c : Cls) (lOut : Nat) : Bool :=
  decide (classOccupancy q c + lOut ≤ look q.limits c) && decide (totalOccupancy q + lOut ≤ campusBufferBytes)

/-- Sends a queue-drop report for a protected frame (R123). -/
def reportQueueDrop (owner : Option (CtxIx × Gen)) (s : State) : State :=
  match owner with
  | none => s
  | some o => s.setTransit { s.transit with queueReports := s.transit.queueReports ++ [o] }

/-- The Campus Queue takes a frame handed over by its Cipher Lane (R122, R123, R129). -/
def handOver (l : Lane) (c : Cls) (f : CampusFrame) (owner : Option (CtxIx × Gen)) (s : State) : State :=
  let q := s.campusOf l
  if q.linkUp then
    if campusFits q c f.lOut then
      s.setCampus l (campusStart { q with queues := put q.queues c (look q.queues c ++ [f]) })
    else reportQueueDrop owner (s.setCampus l (q.count (.queueDrops c) 1))
  else s.setCampus l (q.count .linkDownDrops 1)

/-! ## Unwrap jobs (R76 to R82) -/

/-- Records a failed job (R82). -/
def recordFailure (t : FailTarget) (c : UnwrapCause) (s : State) : State :=
  s.setKs { s.ks with lastFailure := some (t, c) }

/-- Delivers the result of a DATA job (R79). -/
def deliver (r : DataResult) (s : State) : State :=
  s.setTransit { s.transit with results := s.transit.results ++ [r] }

/-- A DATA job fails (R77, R78, R82). -/
def failData (k : SlotIx) (c : CtxIx) (g : Gen) (cause : UnwrapCause) (s : State) : State :=
  deliver ⟨k, c, g, .failure cause⟩ (recordFailure (.data k c g) cause s)

/-- The unwrapping key a job captures at its start; absent for a DATA job whose KEK entry is EMPTY (R77). -/
def captureKey (s : State) : Job → Option Key
  | .data k _ _ _ => look s.ks.keks (s.slot k).kek
  | .kek _ _ _ => some (s.ks.mgmtKey.getD 0#256)
  | .mk _ _ => some (s.ks.mgmtKey.getD 0#256)

/-- The IDLE engine starts jobs from the head of a list; one that finds its KEK EMPTY fails at once and the next starts
(R76, R77). -/
def startFrom : List Job → State → State
  | [], s => s
  | j :: js, s =>
    let s₁ := s.setKs { s.ks with jobs := js }
    match captureKey s j with
    | some key => s₁.setKs { s₁.ks with running := some ⟨j, key⟩ }
    | none =>
      match j with
      | .data k c g _ => startFrom js (failData k c g .kekAbsent s₁)
      | _ => startFrom js s₁

/-- Starts the job at the head of the queue when the engine is IDLE (R76). -/
def startJobs (s : State) : State := if s.ks.running.isNone then startFrom s.ks.jobs s else s

/-- Appends a job at the tail of the queue; an IDLE engine starts it (R66, R71, R74, R76; assumption 4). -/
def queueJob (j : Job) (s : State) : State := startJobs (s.setKs { s.ks with jobs := s.ks.jobs ++ [j] })

/-- The command in progress that waits on the job of command number `n` (R81, R159). -/
def waitingCommand (n : Nat) (s : State) : Option Command :=
  match s.agent.progress with
  | none => none
  | some c => if c.serial = n && c.stage == .waitJob then some c else none

/-- The agent abandons its command: no response is built, the reserved place is released and the agent becomes IDLE
(R159). -/
def abandon (c : Command) (s : State) : State :=
  (s.setMerge c.lane { s.mergeOf c.lane with reserved := false }).setAgent { s.agent with progress := none }

end Sys2Proof.Machine
end

