-- ==== Sys2Proof/Machine/Admission.lean ====
section
/-! DEFINITION. Events at a context record: ADMISSION_REQUEST, the drop reports, DATA_RESULT and SWEEP_VISIT's age visit
(chapters 2, 3 and 5, R79, R109, R117). -/

namespace Sys2Proof.Machine

/-- The answer to an admission request (R54). -/
inductive Admission where
  | admitted (gen : Gen) (slot : SlotIx) (pn : Nat) (phase : Phase) (tag : BitVec 32) (cls : Cls)
      (originLabel clearTag : Bool) (lOut : Nat)
  | noContext
  | oversize
  | noKey
deriving DecidableEq, Repr

/-- The clear-tag length of a request under the options of a context (R45). -/
def reqT (r : Ctx) (q : AdmissionReq) : Nat := clearTagLen q.tagged r.options.clearTag
/-- The origin-label length under the options of a context (R45). -/
def reqO (r : Ctx) : Nat := originLen r.options.originLabel
/-- The output length of a request under the options of a context (R46). -/
def reqLOut (r : Ctx) (q : AdmissionReq) : Nat := outLen q.length (reqO r)
/-- The block charge of a request under the options of a context (R47). -/
def reqBlocks (r : Ctx) (q : AdmissionReq) : Nat := blockCharge q.length (reqT r q) (reqO r)

/-- The charge would carry the key block count past the block hard limit (R56). -/
def blockHardMet (r : Ctx) (b : Nat) : Bool :=
  blocksInSet r.condition && decide (r.thresholds.blockHard * blockUnit < r.blocks + b)

/-- The block soft condition is met by the count as it stands (R58, R62). -/
def blockSoftMet (r : Ctx) : Bool :=
  blocksInSet r.condition && decide (r.thresholds.blockSoft * blockUnit ≤ r.blocks)

/-- The record after an admission (R57): the packet number is consumed, the blocks are charged, and the two counters
increase. -/
def admittedRecord (r : Ctx) (q : AdmissionReq) : Ctx :=
  (({ r with nextPn := r.nextPn + 1, blocks := satAdd r.blocks (reqBlocks r q) } : Ctx).count .protectedFrames 1).count
    .protectedBytes (reqLOut r q)

/-- The admission itself at an ACTIVE context with current slot `k` (R57). -/
def admitUnder (k : SlotIx) (q : AdmissionReq) (s : State) : State :=
  let r := s.ctx q.ctx
  slotRequest k q.ctx r.generation increaseSlot (s.setCtx q.ctx (admittedRecord r q))

/-- The soft checks of an admission that issued packet number `pn` (R58). -/
def admissionSoft (c : CtxIx) (pn : Nat) (s : State) : State :=
  let r := s.ctx c
  if !r.softReached && (decide (r.thresholds.pnSoft ≤ pn) || blockSoftMet r) then softCrossing c s else s

/-- The PN hard event: the tenure that issued the last packet number still stands (R59). -/
def admissionPnHard (c : CtxIx) (s : State) : State :=
  if lastPn < (s.ctx c).nextPn then hardEvent c s else s

/-- Steps 5 to 7 of R55 at an ACTIVE context, and the answer. -/
def admitActive (q : AdmissionReq) (s : State) : State × Admission :=
  let r := s.ctx q.ctx
  match r.state, r.current with
  | .active, some k =>
    (admissionPnHard q.ctx (admissionSoft q.ctx r.nextPn (admitUnder k q s)),
      .admitted r.generation k r.nextPn r.phase r.tag r.cls r.options.originLabel r.options.clearTag (reqLOut r q))
  | _, _ => (s.setCtx q.ctx (r.count .noKeyDrops 1), .noKey)

/-- The admission request is taken at the context it names (R55, R56). -/
def decideAdmission (q : AdmissionReq) (s : State) : State × Admission :=
  let r := s.ctx q.ctx
  if r.state = .undefined then (s, .noContext)
  else if q.limit < reqLOut r q + 4 then (s.setCtx q.ctx ((r.count .oversizeDrops 1).raise .oversize), .oversize)
  else if r.state = .active && blockHardMet r (reqBlocks r q) then admitActive q (hardEvent q.ctx s)
  else admitActive q s

/-- The youngest record of a lane replaced by `rs` (none or one). -/
def replaceYoungest (recs : List Rec) (rs : List Rec) : List Rec := recs.dropLast ++ rs

/-- The lane's outstanding mark is cleared and its youngest record is replaced (R109, R117). -/
def closeRequest (l : Lane) (rs : List Rec) (s : State) : State :=
  s.setCipher l { s.cipherOf l with recs := replaceYoungest (s.cipherOf l).recs rs, request := none }

/-- The answer is taken at the lane (R109, R117). The flush-drop report of a FLUSHED record that is answered ADMITTED carries no
restart mark: whether the third step of a restart waits for it the spec does not say, and here it does not (R41, R119;
assumption 23). -/
def takeAnswer (l : Lane) (q : AdmissionReq) (a : Admission) (s : State) : State :=
  match (s.cipherOf l).recs.getLast?, a with
  | some (.reserved f e _), .admitted g k pn ph tag cls ol ct lo =>
    closeRequest l [.protect ⟨f, e, q.ctx, g, k, pn, ph, tag, cls, ol, ct, lo⟩] s
  | some .flushed, .admitted g k _ _ _ _ _ _ _ => discardProtect l k q.ctx g false (closeRequest l [] s)
  | some (.reserved _ _ _), .noContext => reportLaneDrop l .noContext (closeRequest l [] s)
  | some .flushed, .noContext => reportLaneDrop l .noContext (closeRequest l [] s)
  | some (.reserved _ _ _), .oversize => closeRequest l [] s
  | some (.reserved _ _ _), .noKey => closeRequest l [] s
  | some .flushed, .oversize => closeRequest l [] s
  | some .flushed, .noKey => closeRequest l [] s
  | _, _ => s.setCipher l { s.cipherOf l with request := none }

/-- The outstanding admission request of lane `l` is taken (R55, R109, R117). -/
def admissionRequest (l : Lane) (s : State) : State :=
  match (s.cipherOf l).request with
  | none => s
  | some q =>
    let d := decideAdmission q s
    departNew s (laneTake l (takeAnswer l q d.2 (reportRises q.ctx s d.1)))

/-- ADMISSION_REQUEST (R55). -/
def execAdmissionRequest (l : Lane) (s : State) : Host.Outcome State Fault Refusal := .next (admissionRequest l s)

/-! ## Drop reports (R33) -/

/-- Flush-drop report `n` of those in transit is taken at the Context Table (R33). -/
def flushDropReport (n : Nat) (s : State) : State :=
  match s.transit.flushReports[n]? with
  | none => s
  | some m =>
    let s₁ := s.setTransit { s.transit with flushReports := s.transit.flushReports.eraseIdx n }
    if (s.ctx m.ctx).generation = m.gen then
      departNew s (reportRises m.ctx s (s₁.setCtx m.ctx ((s.ctx m.ctx).count .flushDrops 1)))
    else s₁

/-- FLUSH_DROP_REPORT (R33). -/
def execFlushDropReport (n : Nat) (s : State) : Host.Outcome State Fault Refusal := .next (flushDropReport n s)

/-- Queue-drop report `n` of those in transit is taken at the Context Table (R33). -/
def queueDropReport (n : Nat) (s : State) : State :=
  match s.transit.queueReports[n]? with
  | none => s
  | some (c, g) =>
    let s₁ := s.setTransit { s.transit with queueReports := s.transit.queueReports.eraseIdx n }
    if (s.ctx c).generation = g then
      departNew s (reportRises c s (s₁.setCtx c (((s.ctx c).count .queueDrops 1).raise .queueDrop)))
    else s₁

/-- QUEUE_DROP_REPORT (R33). -/
def execQueueDropReport (n : Nat) (s : State) : Host.Outcome State Fault Refusal := .next (queueDropReport n s)

/-! ## Unwrap results (R79, R93) -/

/-- A slot still waits for the result that names it (first row of R79). -/
def awaitsResult (r : DataResult) (s : State) : Bool :=
  (s.slot r.slot).state == .unwrapping && (s.slot r.slot).owner == some (r.ctx, r.gen)

/-- The context still names the slot as next under the generation recorded (R79). -/
def stillBound (r : DataResult) (s : State) : Bool :=
  (s.ctx r.ctx).generation == r.gen && (s.ctx r.ctx).next.map Prod.fst == some r.slot

/-- A success is bound: the slot becomes READY, NEXT_READY is raised, and the switch follows when the context is KEYLESS,
HALTED or switch-pending (R79, R93). -/
def bindSuccess (r : DataResult) (s : State) : State :=
  let x := s.ctx r.ctx
  let s₁ := s.setSlot r.slot { s.slot r.slot with state := .ready }
  let s₂ := s₁.setKs { s₁.ks with successes := satAdd s₁.ks.successes 1 }
  let s₃ := s₂.setCtx r.ctx (({ x with next := some (r.slot, .ready) } : Ctx).raise .nextReady)
  if x.state == .keyless || x.state == .halted || x.switchPending then switchCtx r.ctx s₃ else s₃

/-- A failure is bound: the slot is scrubbed, the next slot becomes absent and UNWRAP_FAILED is raised (R79). -/
def bindFailure (r : DataResult) (s : State) : State :=
  let s₁ := s.setSlot r.slot (startScrub (s.slot r.slot))
  let s₂ := s₁.setKs { s₁.ks with failures := satAdd s₁.ks.failures 1 }
  s₂.setCtx r.ctx (({ s.ctx r.ctx with next := none } : Ctx).raise .unwrapFailed)

/-- A result is taken at its owner context (R79). -/
def takeResult (r : DataResult) (s : State) : State :=
  if !awaitsResult r s then s
  else if !stillBound r s then
    let s₁ := s.setSlot r.slot (startScrub (s.slot r.slot))
    s₁.setKs { s₁.ks with setAside := satAdd s₁.ks.setAside 1 }
  else
    match r.outcome with
    | .success => bindSuccess r s
    | .failure _ => bindFailure r s

/-- Result `n` of those in transit is taken (R79). -/
def dataResult (n : Nat) (s : State) : State :=
  match s.transit.results[n]? with
  | none => s
  | some r =>
    let s₁ := s.setTransit { s.transit with results := s.transit.results.eraseIdx n }
    departNew s (reportRises r.ctx s (takeResult r s₁))

/-- DATA_RESULT (R79). -/
def execDataResult (n : Nat) (s : State) : Host.Outcome State Fault Refusal := .next (dataResult n s)

/-! ## Age visits (R60) -/

/-- The record after the update of a visit (R60, step 1). -/
def agedRecord (r : Ctx) (inc : Nat) : Ctx :=
  let r₁ : Ctx := { r with age := min (r.age + inc) ageMax }
  if ageMax < r.age + inc then r₁.raise .saturated else r₁

/-- The age soft check of a visit (R60, step 2). -/
def ageSoft (c : CtxIx) (s : State) : State :=
  let r := s.ctx c
  if ageInSet r.condition && !r.softReached && decide (r.thresholds.ageSoft ≤ r.age) then softCrossing c s else s

/-- The age hard check of a visit (R60, step 3). -/
def ageHard (c : CtxIx) (s : State) : State :=
  let r := s.ctx c
  if ageInSet r.condition && decide (r.thresholds.ageHard ≤ r.age) then hardEvent c s else s

/-- A sweep visit with an increment at a context (R60). -/
def ageVisit (c : CtxIx) (inc : Nat) (s : State) : State :=
  if (s.ctx c).state = .active then
    reportRises c s (ageHard c (ageSoft c (s.setCtx c (agedRecord (s.ctx c) inc))))
  else s

end Sys2Proof.Machine
end

