-- ==== Sys2Proof/Machine/AgeTimers.lean ====
section
/-! DEFINITION. The Age Timer: REFERENCE_TICK, COUNT_STEP, AGE_TICK, PASS_START, SWEEP_VISIT and AGE_TIMER_ZEROIZE
(chapter 8). -/

namespace Sys2Proof.Machine

/-- The Age Timer after the start of a pass (R140): over an empty range the pass completes at once. -/
def startPass (a : AgeTimer) : AgeTimer :=
  if a.sweepStart.val ≤ a.sweepStop.val then
    { a with owed := 0, pass := some ⟨a.owed, a.sweepStart, a.sweepStop, a.sweepStart⟩ }
  else { a with owed := 0, pass := none }

/-- A pass starts when ticks are owed and no pass runs (R140). -/
def passStart (a : AgeTimer) : AgeTimer := if a.pass.isNone && decide (0 < a.owed) then startPass a else a

/-- PASS_START (R140). -/
def execPassStart (s : State) : Host.Outcome State Fault Refusal := .next (s.setAge (passStart s.age))

/-- An age tick is taken at the owed count (R138). -/
def ageTick (s : State) : State :=
  if s.age.pass.isNone then s.setAge (startPass { s.age with owed := 1 })
  else if s.age.owed < owedMax then raiseDevice .sweepLag (s.setAge { s.age with owed := s.age.owed + 1 })
  else raiseDevice .sweepLag (s.setAge { s.age with lostTicks := satAdd s.age.lostTicks 1 })

/-- A count step (R136, item 2). -/
def countStep (s : State) : State :=
  if s.age.countDiv + 1 < s.age.count then s.setAge { s.age with countDiv := s.age.countDiv + 1 }
  else ageTick (s.setAge { s.age with countDiv := 0 })

/-- A reference tick (R136, item 1). -/
def referenceTick (s : State) : State :=
  if s.age.prescaleDiv + 1 < s.age.prescale then s.setAge { s.age with prescaleDiv := s.age.prescaleDiv + 1 }
  else countStep (s.setAge { s.age with prescaleDiv := 0 })

/-- An event of the time base is taken while the enable is set, and a notice may depart (R136, R190). -/
def whenEnabled (f : State → State) (s : State) : State := if s.age.enable then departNew s (f s) else s

/-- REFERENCE_TICK (R136). -/
def execReferenceTick (s : State) : Host.Outcome State Fault Refusal := .next (whenEnabled referenceTick s)

/-- COUNT_STEP (R136; assumption 6). -/
def execCountStep (s : State) : Host.Outcome State Fault Refusal := .next (whenEnabled countStep s)

/-- AGE_TICK (R138; assumption 6). -/
def execAgeTick (s : State) : Host.Outcome State Fault Refusal := .next (whenEnabled ageTick s)

/-- The pass position moves on, or the visit of the pass end completes the pass (R141, R142). -/
def advancePass (a : AgeTimer) : AgeTimer :=
  match a.pass with
  | none => a
  | some p =>
    if h : p.position.val < p.stop.val then
      { a with pass := some { p with position := ⟨p.position.val + 1, by have := p.stop.isLt; omega⟩ } }
    else passStart { a with pass := none }

/-- The visit that a RUNNING pass has sent and that is not yet taken: context index and increment (R140, R141, R147). -/
def sentVisit (a : AgeTimer) : Option (CtxIx × Nat) := a.pass.map (fun p => (p.position, p.increment))

/-- The visits sent and not yet taken: those that abandoned passes have left, by their places, and that of the RUNNING pass, which
has no place (R141, R146). -/
def visitsSent (s : State) : List (Option Nat × CtxIx × Nat) :=
  s.transit.visits.zipIdx.map (fun v => (some v.2, v.1)) ++ (sentVisit s.age).toList.map (fun v => (none, v))

/-- The visit that is taken next; a free value decides between several (assumption 29). -/
def nextVisit (s : State) : Option (Option Nat × CtxIx × Nat) :=
  match visitsSent s with
  | [] => none
  | [v] => some v
  | v :: w :: vs => (v :: w :: vs)[Config.whichVisit s.draws % (vs.length + 2)]?

/-- What the event of a visit does beside the context: the pass moves on, or the visit left by an abandoned pass is gone. -/
def closeVisit (place : Option Nat) (s : State) : State :=
  match place with
  | none => s.setAge (advancePass s.age)
  | some n => s.setTransit { s.transit with visits := s.transit.visits.eraseIdx n }

/-- A visit is taken at its context (R60, R141). -/
def sweepVisit (s : State) : State :=
  match nextVisit s with
  | none => s
  | some (place, c, inc) => departNew s (closeVisit place (ageVisit c inc (drawn s)))

/-- SWEEP_VISIT (R60, R141, R142, R146). -/
def execSweepVisit (s : State) : Host.Outcome State Fault Refusal := .next (sweepVisit s)

/-- A running pass is abandoned and the owed ticks are discarded (R145, R146). The visit that the pass has sent stays on its way
and may still be taken at its context, before or after that context's zeroize; the visits of the later positions are not made
(assumption 29). -/
def abandonPass (s : State) : State :=
  (s.setAge { s.age with pass := none, owed := 0 }).setTransit
    { s.transit with visits := s.transit.visits ++ (sentVisit s.age).toList }

/-- AGE_TIMER_ZEROIZE (R146). -/
def execAgeTimerZeroize (s : State) : Host.Outcome State Fault Refusal := .next (abandonPass s)

end Sys2Proof.Machine
end

