-- ==== Sys2Proof/Machine/Campus.lean ====
section
/-! DEFINITION. The Campus Queues' transmission and link state: CAMPUS_TRANSMIT_START, CAMPUS_TRANSMIT_END,
CAMPUS_LINK_DOWN and CAMPUS_LINK_UP (chapter 7). -/

namespace Sys2Proof.Machine

/-- CAMPUS_TRANSMIT_START: the arbiter starts the head of the highest non-empty class queue, when the transmitter is IDLE
with the link UP (R126). -/
def execCampusTransmitStart (l : Lane) (s : State) : Host.Outcome State Fault Refusal :=
  .next (s.setCampus l (campusStart (s.campusOf l)))

/-- The frame in transmission has been sent (R127). -/
def campusEnd (q : CampusQueue) : CampusQueue :=
  match q.sending with
  | none => q
  | some (_, f) =>
    campusStart ((({ q with sending := none } : CampusQueue).count .transmittedFrames 1).count .transmittedBytes f.lOut)

/-- CAMPUS_TRANSMIT_END (R127). -/
def execCampusTransmitEnd (l : Lane) (s : State) : Host.Outcome State Fault Refusal :=
  .next (s.setCampus l (campusEnd (s.campusOf l)))

/-- The number of frames queued in the four classes. -/
def queuedFrames (q : CampusQueue) : Nat := (q.queues.toList.map List.length).sum

/-- The number of frames in transmission, 0 or 1. -/
def sendingFrames (q : CampusQueue) : Nat := if q.sending.isSome then 1 else 0

/-- A report that the link is down (R129). -/
def campusDown (q : CampusQueue) : CampusQueue :=
  if q.linkUp then
    ({ q with queues := Vector.replicate 4 [], sending := none, linkUp := false } : CampusQueue).count .linkDownDrops
      (queuedFrames q + sendingFrames q)
  else q

/-- CAMPUS_LINK_DOWN (R129). -/
def execCampusLinkDown (l : Lane) (s : State) : Host.Outcome State Fault Refusal :=
  .next (s.setCampus l (campusDown (s.campusOf l)))

/-- CAMPUS_LINK_UP: the link state becomes UP; no transmission starts (R130). -/
def execCampusLinkUp (l : Lane) (s : State) : Host.Outcome State Fault Refusal :=
  .next (s.setCampus l { s.campusOf l with linkUp := true })

/-- Step 6 of a restart at one Campus Queue (R134). -/
def campusRestart (q : CampusQueue) : CampusQueue :=
  ({ q with queues := Vector.replicate 4 [] } : CampusQueue).count .restartDiscards (queuedFrames q)

end Sys2Proof.Machine
end

