-- ==== Sys2Proof/Machine/CipherLanes.lean ====
section
/-! DEFINITION. The Cipher Lanes: PASS_RECORD_COMPLETION, PROTECT_RECORD_COMPLETION, IN_FLIGHT_DECREASE and LANE_FLUSH
(chapter 6, R68, R194). -/

namespace Sys2Proof.Machine

/-! ## The envelope (R112, R113, R194) -/

/-- t of a record (R112). -/
def recT (p : ProtectRec) : Nat := clearTagLen (isTagged p.frame) p.clearTag

/-- The phase-and-options byte (R194). -/
def phaseOctet (p : ProtectRec) : Bytes :=
  octetsOf 1 (p.phase.toNat + (if p.originLabel then 4 else 0) + (if recT p = 4 then 8 else 0))

/-- The envelope header (R194). -/
def envelopeHeader (p : ProtectRec) : Bytes :=
  octetsOf 1 1 ++ phaseOctet p ++ octetsOf 4 p.tag.toNat ++ octetsOf 4 p.pn

/-- The origin label of a record of lane `l`, when the record has one (R194). -/
def originOctets (l : Lane) (p : ProtectRec) : Bytes :=
  if p.originLabel then
    octetsOf 1 l.val ++ boolOctet (isTagged p.frame) ++ octetsOf 2 (vlanOf p.frame).toNat ++ octetsOf 2 p.entry.val ++
      octetsOf 2 p.ctx.val
  else []

/-- The octets of the output frame that precede the ciphertext: the authenticated-only data (R112, R113). -/
def envelopeAad (s : State) (l : Lane) (p : ProtectRec) : Bytes :=
  slice p.frame 0 12 ++ slice p.frame 12 (recT p) ++ octetsOf 2 s.agent.envelopeType.toNat ++ envelopeHeader p ++
    originOctets l p

/-- The plaintext (R113). -/
def envelopePlain (p : ProtectRec) : Bytes := p.frame.drop (12 + recT p)

/-- The nonce: salt, context tag, packet number (R113). -/
def envelopeNonce (k : Slot) (p : ProtectRec) : Bytes :=
  octetsOf 4 k.salt.toNat ++ octetsOf 4 p.tag.toNat ++ octetsOf 4 p.pn

/-- The output frame under the key and salt of a slot (R112, R113). -/
def envelope (s : State) (l : Lane) (k : Slot) (p : ProtectRec) : Bytes :=
  let aad := envelopeAad s l p
  let c := gcmEncrypt k.key (envelopeNonce k p) aad (envelopePlain p)
  aad ++ c.1 ++ c.2

/-- The key of a record's slot is usable (R111). -/
def keyUsable (k : Slot) (p : ProtectRec) : Bool :=
  (k.state == .current || k.state == .draining) && k.owner == some (p.ctx, p.gen)

/-! ## Completion (R110, R111, R114) -/

/-- Removes the record at the head of lane `l`. -/
def dropRecord (l : Lane) (rest : List Rec) (s : State) : State := s.setCipher l { s.cipherOf l with recs := rest }

/-- The head record of lane `l` completes when it is a PASS record (R110). -/
def passCompletion (l : Lane) (s : State) : State :=
  match (s.cipherOf l).recs with
  | .pass f cls :: rest => laneTake l (handOver l cls ⟨f, f.length⟩ none (dropRecord l rest s))
  | _ => s

/-- PASS_RECORD_COMPLETION (R110, R122). -/
def execPassRecordCompletion (l : Lane) (s : State) : Host.Outcome State Fault Refusal := .next (passCompletion l s)

/-- The head record of lane `l` completes when it is a PROTECT record: the frame is built and handed over and the in-flight
reference released, or the key is gone and the frame is discarded (R111, R114). -/
def protectCompletion (l : Lane) (s : State) : State :=
  match (s.cipherOf l).recs with
  | .protect p :: rest =>
    let s₁ := dropRecord l rest s
    if keyUsable (s.slot p.slot) p then
      laneTake l (releaseInFlight p.slot p.ctx p.gen
        (handOver l p.cls ⟨envelope s l (s.slot p.slot) p, p.lOut⟩ (some (p.ctx, p.gen)) s₁))
    else laneTake l (discardProtect l p.slot p.ctx p.gen false s₁)
  | _ => s

/-- PROTECT_RECORD_COMPLETION (R111 to R114). -/
def execProtectRecordCompletion (l : Lane) (s : State) : Host.Outcome State Fault Refusal := .next (protectCompletion l s)

/-! ## In-flight releases (R68; assumption 5) -/

/-- A record holds the slot under this context and generation. -/
def holdsSlot (k : SlotIx) (c : CtxIx) (g : Gen) : Rec → Bool
  | .protect p => p.slot == k && p.ctx == c && p.gen == g
  | _ => false

/-- The records of the four Cipher Lanes that hold a slot. -/
def holders (k : SlotIx) (c : CtxIx) (g : Gen) (s : State) : Nat :=
  ((s.cipher.toList.map CipherLane.recs).flatten.filter (holdsSlot k c g)).length

/-- A release from a Cipher Lane reaches slot `k`. The completions and flushes take their own releases in their own events
(R114, R116), so only a reference that no record holds any more is left to release. -/
def inFlightDecrease (k : SlotIx) (c : CtxIx) (g : Gen) (s : State) : State :=
  if holders k c g s < (s.slot k).inFlight then releaseInFlight k c g s else s

/-- IN_FLIGHT_DECREASE (R68). -/
def execInFlightDecrease (k : SlotIx) (c : CtxIx) (g : Gen) (s : State) : Host.Outcome State Fault Refusal :=
  .next (inFlightDecrease k c g s)

/-! ## Flushing (R116, R118, R119) -/

/-- What a flush does for one record, beside emptying the list (R116). -/
def flushRecord (l : Lane) (restart : Bool) (r : Rec) (s : State) : State :=
  match r with
  | .pass _ _ => countFlushDrop l s
  | .protect p => discardProtect l p.slot p.ctx p.gen restart s
  | .reserved _ _ _ => s
  | .flushed => s

/-- The records of a list, oldest first, are handled (R116). -/
def flushRecords (l : Lane) (restart : Bool) : List Rec → State → State
  | [], s => s
  | r :: rs, s => flushRecords l restart rs (flushRecord l restart r s)

/-- What a flush leaves of a record: a RESERVED record is marked FLUSHED and stays, and a FLUSHED one still waits for its
answer (R116, R117; assumption 25). -/
def flushLeaves : Rec → Bool
  | .pass _ _ => false
  | .protect _ => false
  | .reserved _ _ _ => true
  | .flushed => true

/-- The flush of lane `l` (R116). After it the lane takes frames again under R107. -/
def flushLane (l : Lane) (restart : Bool) (s : State) : State :=
  let recs := (s.cipherOf l).recs
  let s₁ := flushRecords l restart recs s
  laneTake l (s₁.setCipher l { s₁.cipherOf l with recs := (recs.filter flushLeaves).map (fun _ => Rec.flushed) })

/-- The restart in progress, when its second step still waits for the flush of lane `l` (R173). -/
def restartFlush (l : Lane) (s : State) : Option (Command × List Lane × Bool) :=
  match s.agent.progress with
  | none => none
  | some c =>
    match c.stage with
    | .restart (.flush left) free => if left.contains l then some (c, left.filter (fun k => k != l), free) else none
    | _ => none

/-- A flush is taken at lane `l`: on the assertion of ZEROIZE_N (R118), or as an event of a restart's second step (R119). -/
def laneFlush (l : Lane) (cause : FlushCause) (s : State) : State :=
  match cause with
  | .zeroize => flushLane l false s
  | .restart =>
    match restartFlush l s with
    | none => s
    | some (c, left, free) =>
      setStage c (.restart (if left.isEmpty then .contexts else .flush left) free) (flushLane l true s)

/-- LANE_FLUSH (R116). -/
def execLaneFlush (l : Lane) (cause : FlushCause) (s : State) : Host.Outcome State Fault Refusal :=
  .next (laneFlush l cause s)

end Sys2Proof.Machine
end

