-- ==== Sys2Proof/Machine/CommandIntake.lean ====
section
/-! DEFINITION. COMMAND_BEGIN: the Control Agent takes the head of intake (R153, R154, R161). -/

namespace Sys2Proof.Machine

/-- The IDLE agent examines the head of intake and begins what it may (R153). The operations that bring the last of the
conditions about call `settle` themselves (assumption 3), so that this event, sent alone, finds a command to begin only
where none of them has. -/
def commandBegin (s : State) : State := settle s s

/-- COMMAND_BEGIN (R153). -/
def execCommandBegin (s : State) : Host.Outcome State Fault Refusal := .next (commandBegin s)

end Sys2Proof.Machine
end

