-- ==== Sys2Proof/Machine/DeviceCommands.lean ====
section
/-! DEFINITION. The device commands: IDENTIFY, DEVICE_STATUS_READ and STATUS_SNAPSHOT, MGMT_KEY_SET, DEVICE_ADDRESS_SET,
ENVELOPE_TYPE_SET, TIME_BASE_SET, SWEEP_RANGE_SET, LANE_SET, LANE_COUNTERS_READ and LANE_SNAPSHOT; and the notice commands:
NOTICE_ROUTE_SET, NOTICE_ENABLE_SET and ATTENTION_CLEAR (R166 to R176, R197). -/

namespace Sys2Proof.Machine

/-- The body of a command. -/
def cmdBody (c : Command) : Bytes := ctlBody c.frame

/-- A check of R165: its failure decides the response, and the next check follows otherwise. -/
def refuseIf (bad : Bool) (st : Status) (k : Taken) : Taken := if bad then .refuse st else k

/-- OK_CLAMPED when a value was stored other than given, and OK otherwise. -/
def okOr (clamped : Bool) : Status := if clamped then .okClamped else .ok

/-! ## IDENTIFY (R166, R196) -/

/-- The identity record (R196). -/
def identityRecord (s : State) : Bytes :=
  octetsOf 2 0x4120 ++ octetsOf 1 1 ++ octetsOf 1 4 ++ octetsOf 2 1024 ++ octetsOf 2 2304 ++ octetsOf 2 512 ++
    octetsOf 1 4 ++ octetsOf 1 s.provLane.val ++ boolOctet s.mkOnce ++ boolOctet s.mkOnce ++
    boolOctet s.ks.mgmtKey.isSome

/-- IDENTIFY (R166). -/
def execIdentify (s : State) : Host.Outcome State Fault Refusal :=
  .next (takeCommand 0x01 (fun _ s => .done .ok (identityRecord s) s) s)

/-! ## DEVICE_STATUS_READ (R167, R197) -/

/-- The number of slots in a state. -/
def slotsIn (ks : KeyStore) (st : SlotState) : Nat := ks.slots.toList.countP (fun k => k.state == st)

/-- The last-failure record, 8 octets (R197). -/
def lastFailureOctets : Option (FailTarget × UnwrapCause) → Bytes
  | none => zeros 8
  | some (.data k c g, cause) =>
    octetsOf 1 1 ++ octetsOf 1 cause.code ++ octetsOf 2 k.val ++ octetsOf 2 c.val ++ octetsOf 2 g.toNat
  | some (.kek i, cause) => octetsOf 1 2 ++ octetsOf 1 cause.code ++ octetsOf 2 i.val ++ zeros 4
  | some (.mk, cause) => octetsOf 1 3 ++ octetsOf 1 cause.code ++ zeros 6

/-- The Key Store's part (R87, R197). -/
def keyStorePart (s : State) : Bytes :=
  let ks := s.ks
  boolOctet ks.mgmtKey.isSome ++ boolOctet s.mkOnce ++ boolOctet ks.zeroizeHeld ++
    (ks.keks.toList.map (fun k => boolOctet k.isSome)).flatten ++ boolOctet ks.running.isSome ++
    octetsOf 1 ks.jobs.length ++ octetsOf 2 (slotsIn ks .free) ++ octetsOf 2 (slotsIn ks .unwrapping) ++
    octetsOf 2 (slotsIn ks .ready) ++ octetsOf 2 (slotsIn ks .current) ++ octetsOf 2 (slotsIn ks .draining) ++
    octetsOf 2 (slotsIn ks .scrubbing) ++ lastFailureOctets ks.lastFailure ++ counterOctets ks.successes ++
    counterOctets ks.failures ++ counterOctets ks.setAside

/-- The four fields of a RUNNING pass, and zeros when none is RUNNING (R197). -/
def passOctets : Option Pass → Bytes
  | none => octetsOf 1 0 ++ zeros 7
  | some p => octetsOf 1 1 ++ octetsOf 1 p.increment ++ octetsOf 2 p.start.val ++ octetsOf 2 p.stop.val ++ octetsOf 2 p.position.val

/-- The Age Timer's part (R147, R197). -/
def ageTimerPart (a : AgeTimer) : Bytes :=
  boolOctet a.enable ++ octetsOf 2 a.prescale ++ octetsOf 2 a.count ++ octetsOf 2 a.sweepStart.val ++
    octetsOf 2 a.sweepStop.val ++ octetsOf 1 a.owed ++ passOctets a.pass ++ counterOctets a.lostTicks

/-- The kind and class of the default action (R197). -/
def defaultOctets : DefaultAction → Bytes
  | .drop => octetsOf 1 0 ++ octetsOf 1 0
  | .pass c => octetsOf 1 1 ++ octetsOf 1 c.val

/-- The route lane and address: 255 and zeros when unset (R175, R197). -/
def routeOctets : Option NoticeRoute → Bytes
  | none => octetsOf 1 255 ++ zeros 6
  | some r => octetsOf 1 r.lane.val ++ macOctets r.address

/-- The Notice Unit's part (R185, R197). -/
def noticePart (n : NoticeUnit) : Bytes :=
  octetsOf 1 n.flags.toNat ++ octetsOf 1 n.enables.toNat ++ octetsOf 1 n.owed.toNat ++ boolOctet n.master ++
    routeOctets n.route ++ octetsOf 1 n.queue.length

/-- DEVICE_STATUS_READ: the blocks are asked for their parts; the agent's own was taken when the command began (R167). -/
def execDeviceStatusRead (s : State) : Host.Outcome State Fault Refusal :=
  .next (takeCommand 0x02 (fun c s =>
    match c.stage with
    | .begun part => .waits (.gatherStatus none none part none none) s
    | _ => .waits (.gatherStatus none none none none none) s) s)

/-- A part not yet taken is filled; one taken stays. -/
def fillPart (old : Option Bytes) (new : Bytes) : Option Bytes :=
  match old with
  | none => some new
  | some b => some b

/-- The command goes on gathering, or ends with the record when no part is missing (R155, R167). -/
def statusGathered (c : Command) (k a g e n : Option Bytes) (s : State) : State :=
  match k, a, g, e, n with
  | some k, some a, some g, some e, some n => answer s c .ok (k ++ a ++ g ++ e ++ n) s
  | k, a, g, e, n => setStage c (.gatherStatus k a g e n) s

/-- One block takes its snapshot (R167). -/
def statusSnapshot (b : StatusBlock) (s : State) : State :=
  match s.agent.progress with
  | none => s
  | some c =>
    match c.stage with
    | .gatherStatus k a g e n =>
      match b with
      | .keyStore => statusGathered c (fillPart k (keyStorePart s)) a g e n s
      | .ageTimer => statusGathered c k (fillPart a (ageTimerPart s.age)) g e n s
      | .controlAgent => statusGathered c k a (fillPart g (agentPart s.agent)) e n s
      | .selector => statusGathered c k a g (fillPart e (defaultOctets s.selector.default)) n s
      | .noticeUnit => statusGathered c k a g e (fillPart n (noticePart s.notice)) s
    | _ => s

/-- STATUS_SNAPSHOT (R167). -/
def execStatusSnapshot (b : StatusBlock) (s : State) : Host.Outcome State Fault Refusal := .next (statusSnapshot b s)

/-! ## MGMT_KEY_SET (R73, R74, R168) -/

/-- MGMT_KEY_SET is taken (R168; assumption 15). -/
def mgmtKeySet (c : Command) (s : State) : Taken :=
  refuseIf s.ks.zeroizeHeld .zeroizeHeld <|
    match s.ks.mgmtKey with
    | none =>
      refuseIf (ctlBodyLen c.frame != 32) .badLength <|
        .done .ok [] (s.setKs { s.ks with mgmtKey := some (keyOf (cmdBody c)) })
    | some _ =>
      refuseIf s.mkOnce .keyLocked <|
        refuseIf (ctlBodyLen c.frame != 40) .badLength <|
          refuseIf (decide (jobPlaces ≤ s.ks.jobs.length)) .queueFull <|
            .waits .waitJob (queueJob (.mk (cmdBody c) c.serial) s)

/-- MGMT_KEY_SET (R168). -/
def execMgmtKeySet (s : State) : Host.Outcome State Fault Refusal := .next (takeCommand 0x03 mgmtKeySet s)

/-! ## DEVICE_ADDRESS_SET and ENVELOPE_TYPE_SET (R158, R169) -/

/-- DEVICE_ADDRESS_SET (R158, R169). -/
def execDeviceAddressSet (s : State) : Host.Outcome State Fault Refusal :=
  .next (takeCommand 0x04 (fun c s =>
    .done .ok (octetsOf 6 (field (cmdBody c) 0 6))
      (s.setAgent { s.agent with address := BitVec.ofNat 48 (field (cmdBody c) 0 6) })) s)

/-- An envelope type value that is refused (R169). -/
def badEnvelopeType (v : Nat) : Bool := v == 0x8100 || decide (v ≤ 0x05FF)

/-- ENVELOPE_TYPE_SET (R158, R169). -/
def execEnvelopeTypeSet (s : State) : Host.Outcome State Fault Refusal :=
  .next (takeCommand 0x05 (fun c s =>
    refuseIf (badEnvelopeType (field (cmdBody c) 0 2)) .badValue <|
      .done .ok (octetsOf 2 (field (cmdBody c) 0 2))
        (s.setAgent { s.agent with envelopeType := BitVec.ofNat 16 (field (cmdBody c) 0 2) })) s)

/-! ## TIME_BASE_SET and SWEEP_RANGE_SET (R137, R139, R170) -/

/-- The stored settings of the time base in a response (R170). -/
def timeBaseOctets (a : AgeTimer) : Bytes := boolOctet a.enable ++ octetsOf 2 a.prescale ++ octetsOf 2 a.count

/-- The Age Timer after a TIME_BASE_SET (R137). -/
def timeBaseStored (a : AgeTimer) (flags pre cnt : Nat) : AgeTimer :=
  if flags.testBit 1 then { a with prescaleDiv := 0, countDiv := 0 }
  else { a with enable := flags.testBit 0, prescale := max 2 pre, count := max 2 cnt, prescaleDiv := 0, countDiv := 0 }

/-- TIME_BASE_SET is taken at the Age Timer (R137, R170). -/
def timeBaseSet (c : Command) (s : State) : Taken :=
  let flags := field (cmdBody c) 0 1
  let pre := field (cmdBody c) 1 2
  let cnt := field (cmdBody c) 3 2
  let a := timeBaseStored s.age flags pre cnt
  refuseIf (decide (3 < flags)) .badValue <|
    .done (okOr (!flags.testBit 1 && (decide (pre < 2) || decide (cnt < 2)))) (timeBaseOctets a) (s.setAge a)

/-- TIME_BASE_SET (R170). -/
def execTimeBaseSet (s : State) : Host.Outcome State Fault Refusal := .next (takeCommand 0x06 timeBaseSet s)

/-- SWEEP_RANGE_SET is taken at the Age Timer (R139, R170). -/
def sweepRangeSet (c : Command) (s : State) : Taken :=
  match indexOf 1024 (field (cmdBody c) 0 2), indexOf 1024 (field (cmdBody c) 2 2) with
  | some a, some b =>
    .done .ok (octetsOf 2 a.val ++ octetsOf 2 b.val) (s.setAge { s.age with sweepStart := a, sweepStop := b })
  | _, _ => .refuse .badIndex

/-- SWEEP_RANGE_SET (R170). -/
def execSweepRangeSet (s : State) : Host.Outcome State Fault Refusal := .next (takeCommand 0x07 sweepRangeSet s)

/-! ## LANE_SET (R124, R171) -/

/-- The clamp of a class limit (R124). -/
def clampLimit (v : Nat) : Nat := if v < 16384 then 16384 else if campusBufferBytes < v then campusBufferBytes else v / 1024 * 1024

/-- The clamp of a campus frame limit (R124). -/
def clampFrameLimit (v : Nat) : Nat := if v < 1518 then 1518 else if 9600 < v then 9600 else v

/-- The five values of a LANE_SET body: the campus frame limit and the four class limits (R171). -/
def laneSetGiven (b : Bytes) : Nat × List Nat := (field b 1 2, [field b 3 4, field b 7 4, field b 11 4, field b 15 4])

/-- LANE_SET is taken at the lane's Campus Queue (R124, R171). -/
def laneSet (c : Command) (s : State) : Taken :=
  let b := cmdBody c
  match indexOf 4 (field b 0 1) with
  | none => .refuse .badIndex
  | some l =>
    let fl := clampFrameLimit (field b 1 2)
    let l0 := clampLimit (field b 3 4)
    let l1 := clampLimit (field b 7 4)
    let l2 := clampLimit (field b 11 4)
    let l3 := clampLimit (field b 15 4)
    .done (okOr (decide ((fl, [l0, l1, l2, l3]) ≠ laneSetGiven b)))
      (octetsOf 1 l.val ++ octetsOf 2 fl ++ octetsOf 4 l0 ++ octetsOf 4 l1 ++ octetsOf 4 l2 ++ octetsOf 4 l3)
      (s.setCampus l { s.campusOf l with frameLimit := fl, limits := #v[l0, l1, l2, l3] })

/-- LANE_SET (R171). -/
def execLaneSet (s : State) : Host.Outcome State Fault Refusal := .next (takeCommand 0x08 laneSet s)

/-! ## LANE_COUNTERS_READ (R7, R120, R132, R164, R172) -/

/-- The counters after a snapshot: zeroed with CLEAR, and kept otherwise. -/
def clearedIf {n : Nat} (clear : Bool) (cs : CounterSet n) : CounterSet n := if clear then CounterSet.zero n else cs

/-- The counters and the mark of a set. -/
def counterSetOctets {n : Nat} (cs : CounterSet n) : Bytes := cs.octets ++ boolOctet cs.sat

/-- Trunk Receive's part, 71 octets (R172). -/
def rxPart (r : TrunkRx) : Bytes := counterSetOctets r.counters ++ octetsOf 4 (octetCount r.buffer)

/-- The Cipher Lane's part, 8 octets (R172). -/
def cipherPart (c : CipherLane) : Bytes := counterSetOctets c.flushDrops ++ octetsOf 1 c.recs.length

/-- The Campus Queue's part, 97 octets (R172). -/
def campusPart (q : CampusQueue) : Bytes :=
  counterSetOctets q.counters ++ octetsOf 4 (classOccupancy q 0) ++ octetsOf 4 (classOccupancy q 1) ++
    octetsOf 4 (classOccupancy q 2) ++ octetsOf 4 (classOccupancy q 3) ++ octetsOf 4 (totalOccupancy q) ++
    (q.queues.toList.map (fun fs => octetsOf 2 fs.length)).flatten ++ boolOctet q.sending.isSome ++
    (q.limits.toList.map (octetsOf 4)).flatten ++ octetsOf 2 q.frameLimit ++ boolOctet q.linkUp

/-- The frames of a control output queue, one in transmission from it counted (assumption 18). -/
def controlFrames (m : ReturnMerge) : Nat :=
  m.control.length + (match m.sending with | some (.control _) => 1 | _ => 0)

/-- The Return Merge's part, 44 octets (R172). -/
def mergePart (m : ReturnMerge) : Bytes :=
  counterSetOctets m.counters ++ octetsOf 4 (relayOccupancy m) ++ octetsOf 1 (controlFrames m) ++ boolOctet m.reserved ++
    boolOctet m.linkUp

/-- LANE_COUNTERS_READ is taken: the lane's four blocks are asked for their parts (R172). -/
def laneCountersRead (c : Command) (s : State) : Taken :=
  match indexOf 4 (field (cmdBody c) 0 1) with
  | none => .refuse .badIndex
  | some l =>
    refuseIf (decide (1 < field (cmdBody c) 1 1)) .badValue <|
      .waits (.gatherLane l (field (cmdBody c) 1 1 == 1) none none none none) s

/-- LANE_COUNTERS_READ (R172). -/
def execLaneCountersRead (s : State) : Host.Outcome State Fault Refusal := .next (takeCommand 0x09 laneCountersRead s)

/-- The command goes on gathering, or ends with its body when no part is missing (R155, R172). -/
def laneGathered (s₀ : State) (c : Command) (l : Lane) (clear : Bool) (r p q m : Option Bytes) (s : State) : State :=
  match r, p, q, m with
  | some r, some p, some q, some m => answer s₀ c .ok (octetsOf 1 l.val ++ r ++ p ++ q ++ m) s
  | r, p, q, m => setStage c (.gatherLane l clear r p q m) s

/-- One block of the lane takes its snapshot, with CLEAR applied; a part taken already stays (R172). -/
def laneSnapshot (b : LaneBlock) (s : State) : State :=
  match s.agent.progress with
  | none => s
  | some c =>
    match c.stage with
    | .gatherLane l clear r p q m =>
      match b, r, p, q, m with
      | .trunkReceive, none, p, q, m =>
        laneGathered s c l clear (some (rxPart (s.rxOf l))) p q m
          (s.setRx l { s.rxOf l with counters := clearedIf clear (s.rxOf l).counters })
      | .cipherLane, r, none, q, m =>
        laneGathered s c l clear r (some (cipherPart (s.cipherOf l))) q m
          (s.setCipher l { s.cipherOf l with flushDrops := clearedIf clear (s.cipherOf l).flushDrops })
      | .campusQueue, r, p, none, m =>
        laneGathered s c l clear r p (some (campusPart (s.campusOf l))) m
          (s.setCampus l { s.campusOf l with counters := clearedIf clear (s.campusOf l).counters })
      | .returnMerge, r, p, q, none =>
        laneGathered s c l clear r p q (some (mergePart (s.mergeOf l)))
          (s.setMerge l { s.mergeOf l with counters := clearedIf clear (s.mergeOf l).counters })
      | _, _, _, _, _ => s
    | _ => s

/-- LANE_SNAPSHOT (R172). -/
def execLaneSnapshot (b : LaneBlock) (s : State) : Host.Outcome State Fault Refusal := .next (laneSnapshot b s)

/-! ## Notice commands (R175, R176) -/

/-- NOTICE_ROUTE_SET is taken at the Notice Unit (R175). -/
def noticeRouteSet (c : Command) (s : State) : Taken :=
  let v := field (cmdBody c) 0 1
  if v = 255 then .done .ok (routeOctets none) (s.setNotice { s.notice with route := none })
  else
    match indexOf 4 v with
    | none => .refuse .badIndex
    | some l =>
      let r : NoticeRoute := ⟨l, BitVec.ofNat 48 (field (cmdBody c) 1 6)⟩
      .done .ok (routeOctets (some r)) (s.setNotice { s.notice with route := some r })

/-- NOTICE_ROUTE_SET (R175). -/
def execNoticeRouteSet (s : State) : Host.Outcome State Fault Refusal := .next (takeCommand 0x10 noticeRouteSet s)

/-- NOTICE_ENABLE_SET is taken at the Notice Unit (R175). -/
def noticeEnableSet (c : Command) (s : State) : Taken :=
  let m := field (cmdBody c) 0 1
  let e := field (cmdBody c) 1 1
  refuseIf (decide (1 < m) || decide (63 < e)) .badValue <|
    .done .ok (octetsOf 1 m ++ octetsOf 1 e)
      (s.setNotice { s.notice with master := m == 1, enables := BitVec.ofNat 6 e })

/-- NOTICE_ENABLE_SET (R175). -/
def execNoticeEnableSet (s : State) : Host.Outcome State Fault Refusal := .next (takeCommand 0x11 noticeEnableSet s)

/-- The response body of ATTENTION_CLEAR: target, generation, prior values of the flags named (R176). -/
def attentionBody (target gen prior : Nat) : Bytes := octetsOf 2 target ++ octetsOf 2 gen ++ octetsOf 1 prior

/-- ATTENTION_CLEAR is taken at its owner (R39, R176, R186). -/
def attentionClear (c : Command) (s : State) : Taken :=
  let target := field (cmdBody c) 0 2
  let mask := field (cmdBody c) 2 1
  if target = 65535 then
    refuseIf (decide (63 < mask)) .badValue <|
      .done .ok (attentionBody target 0 (s.notice.flags &&& BitVec.ofNat 6 mask).toNat)
        (s.setNotice { s.notice with flags := s.notice.flags &&& ~~~ BitVec.ofNat 6 mask })
  else
    match indexOf 1024 target with
    | none => .refuse .badIndex
    | some x =>
      let r := s.ctx x
      .done .ok (attentionBody target r.generation.toNat (r.flags &&& BitVec.ofNat 8 mask).toNat)
        (s.setCtx x { r with flags := r.flags &&& ~~~ BitVec.ofNat 8 mask })

/-- ATTENTION_CLEAR (R176). -/
def execAttentionClear (s : State) : Host.Outcome State Fault Refusal := .next (takeCommand 0x12 attentionClear s)

end Sys2Proof.Machine
end

