-- ==== Sys2Proof/Machine/ContextCommands.lean ====
section
/-! DEFINITION. The context commands: CONTEXT_DEFINE, CONTEXT_MODIFY, CONTEXT_CLEAR, CONTEXT_READ, CONTEXT_FLAG and
CONTEXT_COUNTERS_READ (chapter 2, R49, R50, R62, R179 to R181). -/

namespace Sys2Proof.Machine

/-! ## Threshold clamps (R50) -/

/-- A hard limit as stored: 0 is stored as 1. -/
def clampHard (v : Nat) : Nat := max 1 v

/-- A soft threshold as stored against the stored hard limit. -/
def clampSoft (v hard : Nat) : Nat := min (max 1 v) hard

/-- The thresholds as stored. -/
def clampThresholds (t : Thresholds) : Thresholds :=
  { pnSoft := max 1 t.pnSoft, blockSoft := clampSoft t.blockSoft (clampHard t.blockHard),
    blockHard := clampHard t.blockHard, ageSoft := clampSoft t.ageSoft (clampHard t.ageHard),
    ageHard := clampHard t.ageHard }

/-- The five threshold fields of a body, from octet `i` on (R179). -/
def thresholdsAt (b : Bytes) (i : Nat) : Thresholds :=
  ⟨field b i 4, field b (i + 4) 4, field b (i + 8) 4, field b (i + 12) 2, field b (i + 14) 2⟩

/-! ## Response fields -/

/-- Index, generation and state, 5 octets: how most context responses begin. -/
def ctxHead (c : CtxIx) (r : Ctx) : Bytes := octetsOf 2 c.val ++ octetsOf 2 r.generation.toNat ++ octetsOf 1 r.state.code

/-! ## CONTEXT_DEFINE (R27, R179) -/

/-- A body's class, condition code or switch group is outside its range. -/
def badCommon (cls cond group : Nat) : Bool := decide (3 < cls) || decide (3 < cond) || decide (15 < group)

/-- The record that an accepted CONTEXT_DEFINE leaves (R27). The generation and the owed marks are those of `r`. -/
def definedRecord (r : Ctx) (b : Bytes) : Ctx :=
  { Ctx.reset with
    state := .keyless, generation := r.generation, tag := BitVec.ofNat 32 (field b 2 4), cls := Fin.ofNat 4 (field b 6 1),
    options := optionsOf (field b 7 1), condition := Fin.ofNat 4 (field b 8 1), group := Fin.ofNat 16 (field b 9 1),
    thresholds := clampThresholds (thresholdsAt b 10), initialPhase := BitVec.ofNat 2 (field b 26 1),
    phase := BitVec.ofNat 2 (field b 26 1), enables := BitVec.ofNat 8 (field b 27 1), owed := r.owed }

/-- CONTEXT_DEFINE is taken at the record (R27, R179). -/
def contextDefine (cmd : Command) (s : State) : Taken :=
  let b := cmdBody cmd
  match indexOf 1024 (field b 0 2) with
  | none => .refuse .badIndex
  | some c =>
    let r := definedRecord (s.ctx c) b
    refuseIf (badCommon (field b 6 1) (field b 8 1) (field b 9 1) || decide (7 < field b 7 1) ||
        decide (3 < field b 26 1)) .badValue <|
      refuseIf ((s.ctx c).state != .undefined) .contextBusy <|
        .done (okOr (decide (r.thresholds ≠ thresholdsAt b 10))) (ctxHead c r ++ r.thresholds.octets) (s.setCtx c r)

/-- CONTEXT_DEFINE (R27). -/
def execContextDefine (s : State) : Host.Outcome State Fault Refusal := .next (takeCommand 0x30 contextDefine s)

/-! ## CONTEXT_MODIFY (R30, R62, R179) -/

/-- The record with the values of a CONTEXT_MODIFY body stored (R30). -/
def modifiedRecord (r : Ctx) (b : Bytes) : Ctx :=
  { r with
    tag := BitVec.ofNat 32 (field b 2 4), cls := Fin.ofNat 4 (field b 6 1), condition := Fin.ofNat 4 (field b 7 1),
    group := Fin.ofNat 16 (field b 8 1), thresholds := clampThresholds (thresholdsAt b 9) }

/-- A soft condition of the set is met by the measures as they stand (R62, item 1). -/
def softStands (r : Ctx) : Bool :=
  decide (r.thresholds.pnSoft ≤ r.nextPn - 1) || blockSoftMet r ||
    (ageInSet r.condition && decide (r.thresholds.ageSoft ≤ r.age))

/-- A hard limit of the set is met by the measures as they stand (R62, item 2). -/
def hardStands (r : Ctx) : Bool :=
  (blocksInSet r.condition && decide (r.thresholds.blockHard * blockUnit < r.blocks)) ||
    (ageInSet r.condition && decide (r.thresholds.ageHard ≤ r.age))

/-- A soft crossing at this record performs the switch in its own event (R94). -/
def crossingSwitches (r : Ctx) : Bool := r.options.autoRoll && nextReady r

/-- The hard part of the re-evaluation (R62, item 2). -/
def reevaluateHard (c : CtxIx) (s : State) : State := if hardStands (s.ctx c) then hardEvent c s else s

/-- The re-evaluation of an ACTIVE tenure (R62). -/
def reevaluate (c : CtxIx) (s : State) : State :=
  let r := s.ctx c
  if !r.softReached && softStands r then
    if crossingSwitches r then softCrossing c s else reevaluateHard c (softCrossing c s)
  else reevaluateHard c s

/-- The effect of an accepted CONTEXT_MODIFY (R30, R62). -/
def modifyCtx (c : CtxIx) (b : Bytes) (s : State) : State :=
  let s₁ := s.setCtx c (modifiedRecord (s.ctx c) b)
  if (s.ctx c).state = .active then reportRises c s (reevaluate c s₁) else s₁

/-- The response body of CONTEXT_MODIFY, 26 octets (R179). -/
def modifyBody (c : CtxIx) (r : Ctx) : Bytes :=
  ctxHead c r ++ octetsOf 1 r.phase.toNat ++ octetsOf 4 r.nextPn ++ r.thresholds.octets

/-- CONTEXT_MODIFY is taken at the record (R30, R62, R179). -/
def contextModify (cmd : Command) (s : State) : Taken :=
  let b := cmdBody cmd
  match indexOf 1024 (field b 0 2) with
  | none => .refuse .badIndex
  | some c =>
    let s₁ := modifyCtx c b s
    refuseIf (badCommon (field b 6 1) (field b 7 1) (field b 8 1)) .badValue <|
      refuseIf ((s.ctx c).state == .undefined) .contextUndefined <|
        .done (okOr (decide (clampThresholds (thresholdsAt b 9) ≠ thresholdsAt b 9))) (modifyBody c (s₁.ctx c)) s₁

/-- CONTEXT_MODIFY (R30). -/
def execContextModify (s : State) : Host.Outcome State Fault Refusal := .next (takeCommand 0x31 contextModify s)

/-! ## CONTEXT_CLEAR (R32, R180) -/

/-- The record after a CONTEXT_CLEAR (R32). -/
def clearedRecord (r : Ctx) : Ctx :=
  { undefinedRecord r with
    generation := r.generation + 1#16, counters := CounterSet.zero 6, flags := 0#8, enables := 0#8 }

/-- The effect of an accepted CONTEXT_CLEAR (R32, R69). -/
def clearCtx (c : CtxIx) (s : State) : State :=
  let r := s.ctx c
  (releaseNext c (releaseRef r.current c r.generation s)).setCtx c (clearedRecord r)

/-- CONTEXT_CLEAR is taken at the record (R32, R180). -/
def contextClear (cmd : Command) (s : State) : Taken :=
  match indexOf 1024 (field (cmdBody cmd) 0 2) with
  | none => .refuse .badIndex
  | some c =>
    refuseIf ((s.ctx c).state == .undefined) .contextUndefined <|
      .done .ok (ctxHead c (clearedRecord (s.ctx c))) (clearCtx c s)

/-- CONTEXT_CLEAR (R32). -/
def execContextClear (s : State) : Host.Outcome State Fault Refusal := .next (takeCommand 0x32 contextClear s)

/-! ## CONTEXT_READ (R37, R180) -/

/-- The 52 octets of CONTEXT_READ (R180). -/
def contextReadBody (c : CtxIx) (r : Ctx) : Bytes :=
  octetsOf 2 c.val ++ octetsOf 1 r.state.code ++ octetsOf 2 r.generation.toNat ++ octetsOf 4 r.tag.toNat ++
    octetsOf 1 r.cls.val ++ octetsOf 1 r.options.code ++ octetsOf 1 r.condition.val ++ octetsOf 1 r.group.val ++
    r.thresholds.octets ++ octetsOf 1 r.initialPhase.toNat ++ octetsOf 2 (slotCode r.current) ++
    octetsOf 2 (slotCode (r.next.map Prod.fst)) ++ octetsOf 1 (nextCode r.next) ++ octetsOf 1 r.phase.toNat ++
    octetsOf 4 r.nextPn ++ octetsOf 6 r.blocks ++ octetsOf 2 r.age ++ octetsOf 1 (marksCode r) ++
    octetsOf 1 r.flags.toNat ++ octetsOf 1 r.enables.toNat ++ octetsOf 1 r.owed.toNat

/-- CONTEXT_READ is taken at the record (R37, R180). -/
def contextRead (cmd : Command) (s : State) : Taken :=
  match indexOf 1024 (field (cmdBody cmd) 0 2) with
  | none => .refuse .badIndex
  | some c => .done .ok (contextReadBody c (s.ctx c)) s

/-- CONTEXT_READ (R37). -/
def execContextRead (s : State) : Host.Outcome State Fault Refusal := .next (takeCommand 0x33 contextRead s)

/-! ## CONTEXT_FLAG (R31, R38, R181) -/

/-- The value of flag number `n`: an option for 0 to 2, an attention enable for 3 to 10 (R181). -/
def flagValue (r : Ctx) (n : Nat) : Bool :=
  if n = 0 then r.options.originLabel else if n = 1 then r.options.clearTag else if n = 2 then r.options.autoRoll
  else hasFlag r.enables (10 - n)

/-- The record with flag number `n` at a value (R181). -/
def withFlag (r : Ctx) (n : Nat) (v : Bool) : Ctx :=
  if n = 0 then { r with options := { r.options with originLabel := v } }
  else if n = 1 then { r with options := { r.options with clearTag := v } }
  else if n = 2 then { r with options := { r.options with autoRoll := v } }
  else { r with enables := if v then setFlag r.enables (10 - n) else clearFlag r.enables (10 - n) }

/-- The value after an operation: 0 SET, 1 CLEAR, 2 TOGGLE, 3 TEST (R181). -/
def flagAfter (op : Nat) (v : Bool) : Bool := if op = 0 then true else if op = 1 then false else if op = 2 then !v else v

/-- CONTEXT_FLAG is taken at the record (R31, R181). -/
def contextFlag (cmd : Command) (s : State) : Taken :=
  let b := cmdBody cmd
  match indexOf 1024 (field b 0 2) with
  | none => .refuse .badIndex
  | some c =>
    let r := s.ctx c
    let n := field b 2 1
    let op := field b 3 1
    let v := flagValue r n
    refuseIf (decide (10 < n) || decide (3 < op)) .badValue <|
      refuseIf (r.state == .undefined) .contextUndefined <|
        .done .ok (octetsOf 2 c.val ++ octetsOf 2 r.generation.toNat ++ octetsOf 1 n ++ boolOctet v ++
          boolOctet (flagAfter op v)) (s.setCtx c (withFlag r n (flagAfter op v)))

/-- CONTEXT_FLAG (R31). -/
def execContextFlag (s : State) : Host.Outcome State Fault Refusal := .next (takeCommand 0x34 contextFlag s)

/-! ## CONTEXT_COUNTERS_READ (R37, R180) -/

/-- CONTEXT_COUNTERS_READ is taken at the record (R37, R180). -/
def contextCountersRead (cmd : Command) (s : State) : Taken :=
  let b := cmdBody cmd
  match indexOf 1024 (field b 0 2) with
  | none => .refuse .badIndex
  | some c =>
    let r := s.ctx c
    refuseIf (decide (1 < field b 2 1)) .badValue <|
      .done .ok (ctxHead c r ++ counterSetOctets r.counters)
        (s.setCtx c { r with counters := clearedIf (field b 2 1 == 1) r.counters })

/-- CONTEXT_COUNTERS_READ (R37). -/
def execContextCountersRead (s : State) : Host.Outcome State Fault Refusal :=
  .next (takeCommand 0x35 contextCountersRead s)

end Sys2Proof.Machine
end

