-- ==== Sys2Proof/Machine/KeyStores.lean ====
section
/-! DEFINITION. The Key Store's own events: UNWRAP_JOB_START, UNWRAP_JOB_COMPLETE, SCRUB_COMPLETE, KEY_STORE_ZEROIZE,
ZEROIZE_RELEASE, and the agent's and the Context Table's events on ZEROIZE_N: JOB_DISCARD_REPORT, AGENT_ZEROIZE and
CONTEXT_ZEROIZE (chapter 4, R42, R159). -/

namespace Sys2Proof.Machine

/-- UNWRAP_JOB_START (R76, R77). -/
def execUnwrapJobStart (s : State) : Host.Outcome State Fault Refusal := .next (startJobs s)

/-! ## Completion of a job (R78, R81, R82) -/

/-- A DATA job writes its key into its slot and delivers a success (R78). -/
def dataSuccess (k : SlotIx) (c : CtxIx) (g : Gen) (key : Key) (s : State) : State :=
  let s₁ := if (s.slot k).state = .unwrapping then s.setSlot k { s.slot k with key := key } else s
  deliver ⟨k, c, g, .success⟩ s₁

/-- A KEK or MK job has failed (R81, R82). -/
def failDevice (t : FailTarget) (s : State) : State :=
  let s₁ := recordFailure t .check s
  s₁.setKs { s₁.ks with failures := satAdd s₁.ks.failures 1 }

/-- A KEK or MK job has succeeded (R82). -/
def succeedDevice (s : State) : State := s.setKs { s.ks with successes := satAdd s.ks.successes 1 }

/-- The outcome of a KEK or MK job is taken at the agent: the waiting command is answered, if it still waits (R81). -/
def answerJob (s₀ : State) (n : Nat) (st : Status) (body : Bytes) (s : State) : State :=
  match waitingCommand n s with
  | some c => answer s₀ c st body s
  | none => s

/-- The response body of a successful KEK_LOAD: the KEK index (R182). -/
def kekBody (i : KekIx) : Bytes := octetsOf 1 i.val

/-- The response body of UNWRAP_FAIL: the cause CHECK (R168, R182). -/
def failBody : Bytes := octetsOf 1 UnwrapCause.check.code

/-- The effect of a job's end, in the event that began in `s₀` (R78, R81). -/
def finishJob (s₀ : State) (j : Job) (res : Option Key) (s : State) : State :=
  match j, res with
  | .data k c g _, some key => startJobs (dataSuccess k c g key s)
  | .data k c g _, none => startJobs (failData k c g .check s)
  | .kek i _ n, some key =>
    answerJob s₀ n .ok (kekBody i) (startJobs (succeedDevice (s.setKs { s.ks with keks := put s.ks.keks i (some key) })))
  | .kek i _ n, none => answerJob s₀ n .unwrapFail failBody (startJobs (failDevice (.kek i) s))
  | .mk _ n, some key => answerJob s₀ n .ok [] (startJobs (succeedDevice (s.setKs { s.ks with mgmtKey := some key })))
  | .mk _ n, none => answerJob s₀ n .unwrapFail failBody (startJobs (failDevice .mk s))

/-- The wrapped key a job carries. -/
def Job.wrapped : Job → Bytes
  | .data _ _ _ w => w
  | .kek _ w _ => w
  | .mk w _ => w

/-- The running job completes (R78); the engine then starts the next (R76). -/
def jobComplete (s : State) : State :=
  match s.ks.running with
  | none => s
  | some r => finishJob s r.job (unwrapKey r.key r.job.wrapped) (s.setKs { s.ks with running := none })

/-- UNWRAP_JOB_COMPLETE (R78). -/
def execUnwrapJobComplete (s : State) : Host.Outcome State Fault Refusal := .next (jobComplete s)

/-! ## Scrubbing (R70) -/

/-- A slot whose scrub has completed. -/
def freedSlot (k : Slot) : Slot := { k with state := .free, owner := none }

/-- The Key Store reports to a restart that every slot is FREE, once the restart's fifth step has been taken (R86). After a
zeroize it reports again, when the last slot has become FREE (R174; assumption 23). -/
def reportSlotsFree (s : State) : State :=
  match s.agent.progress with
  | none => s
  | some c =>
    match c.stage with
    | .restart (.campus left) _ => if s.ks.freeSlots = slotCount then setStage c (.restart (.campus left) true) s else s
    | .restart .age _ => if s.ks.freeSlots = slotCount then setStage c (.restart .age true) s else s
    | .restart .notice _ => if s.ks.freeSlots = slotCount then setStage c (.restart .notice true) s else s
    | .restart .report _ => if s.ks.freeSlots = slotCount then setStage c (.restart .report true) s else s
    | _ => s

/-- The scrub of slot `k` completes (R70). -/
def scrubComplete (k : SlotIx) (s : State) : State :=
  if (s.slot k).state = .scrubbing then
    let s₁ := s.setSlot k (freedSlot (s.slot k))
    reportSlotsFree (s₁.setKs { s₁.ks with freeSlots := s₁.ks.freeSlots + 1 })
  else s

/-- SCRUB_COMPLETE (R70). -/
def execScrubComplete (k : SlotIx) (s : State) : Host.Outcome State Fault Refusal := .next (scrubComplete k s)

/-! ## ZEROIZE_N (R83, R84, R42, R159) -/

/-- The command that waits on a job, for a KEK or MK job. -/
def Job.command : Job → List Nat
  | .data _ _ _ _ => []
  | .kek _ _ n => [n]
  | .mk _ n => [n]

/-- The jobs discarded by a zeroize: the running one and those queued (R83). -/
def discardedJobs (ks : KeyStore) : List Job :=
  (match ks.running with | some r => [r.job] | none => []) ++ ks.jobs

/-- The Key Store after an assertion of ZEROIZE_N (R83). -/
def zeroizedStore (ks : KeyStore) : KeyStore :=
  { ks with slots := every startScrub ks.slots, freeSlots := 0, keks := Vector.replicate 4 none, mgmtKey := none, jobs := [],
            running := none, zeroizeHeld := true }

/-- A report that every slot is FREE, made to a restart and held at the agent, no longer stands once a zeroize has put the slots
in SCRUBBING: the restart ends when the last slot is FREE again (R86, R174; assumption 23). -/
def withdrawReport (s : State) : State :=
  match s.agent.progress with
  | none => s
  | some c =>
    match c.stage with
    | .restart step _ => setStage c (.restart step false) s
    | _ => s

/-- An assertion of ZEROIZE_N is taken at the Key Store (R83). A restart in progress then waits for the scrubs that it
starts (R86, R174). -/
def keyStoreZeroize (s : State) : State :=
  let s₁ := (s.setKs (zeroizedStore s.ks)).setTransit
    { s.transit with discardReports := s.transit.discardReports ++ ((discardedJobs s.ks).map Job.command).flatten }
  departNew s (raiseDevice .zeroized (raiseDevice .poolLow (withdrawReport s₁)))

/-- KEY_STORE_ZEROIZE (R83). -/
def execKeyStoreZeroize (s : State) : Host.Outcome State Fault Refusal := .next (keyStoreZeroize s)

/-- ZEROIZE_RELEASE (R84). -/
def execZeroizeRelease (s : State) : Host.Outcome State Fault Refusal :=
  .next (s.setKs { s.ks with zeroizeHeld := false })

/-- The record of a context after an assertion of ZEROIZE_N (R42). -/
def zeroizedRecord (r : Ctx) : Ctx :=
  if r.state = .undefined then r else { undefinedRecord r with generation := r.generation + 1#16 }

/-- A zeroize reaches the contexts in KEYLESS, ACTIVE and HALTED (R42). -/
def zeroizeReaches (r : Ctx) : Bool := r.state != .undefined

/-- An assertion of ZEROIZE_N is taken at the Context Table (R42). The contexts it reaches release the slots that they name in
the same event (R23, R105): a READY slot goes to SCRUBBING and a CURRENT one to DRAINING or SCRUBBING. After the Key Store's
own zeroize every slot is SCRUBBING or FREE, and the releases change nothing (R68). -/
def contextZeroize (s : State) : State :=
  { releaseAll zeroizeReaches s with ctxs := every zeroizedRecord s.ctxs }

/-- CONTEXT_ZEROIZE (R42). -/
def execContextZeroize (s : State) : Host.Outcome State Fault Refusal := .next (contextZeroize s)

/-- The agent's event on an assertion of ZEROIZE_N (R159). -/
def agentZeroize (s : State) : State :=
  let s₁ := s.setAgent (({ s.agent with intake := [] } : Agent).count .zeroizeDiscards s.agent.intake.length)
  match s.agent.progress with
  | none => s₁
  | some c => if c.stage = .waitJob then settle s (abandon c s₁) else s₁

/-- AGENT_ZEROIZE (R159). -/
def execAgentZeroize (s : State) : Host.Outcome State Fault Refusal := .next (agentZeroize s)

/-- Report `n` of those in transit, that a KEK or MK job was discarded, is taken at the agent (R159). -/
def jobDiscardReport (n : Nat) (s : State) : State :=
  match s.transit.discardReports[n]? with
  | none => s
  | some m =>
    let s₁ := s.setTransit { s.transit with discardReports := s.transit.discardReports.eraseIdx n }
    match waitingCommand m s with
    | none => s₁
    | some c => settle s (abandon c s₁)

/-- JOB_DISCARD_REPORT (R159). -/
def execJobDiscardReport (n : Nat) (s : State) : Host.Outcome State Fault Refusal := .next (jobDiscardReport n s)

/-! ## Device reset (R8, R19, R40, R84, R85, R106, R133, R144, R148, R160, R185) -/

/-- The state after a device reset that sampled these straps, with ZEROIZE_N asserted at its end or not (R84;
assumption 8). The commands waiting and the count of free values drawn are the model's own and stay. -/
def deviceReset (provLane : Lane) (mkOnce asserted : Bool) (s : State) : State :=
  let s₁ : State :=
    { State.reset with provLane := provLane, mkOnce := mkOnce, draws := s.draws, pending := s.pending }
  if asserted then raiseDevice .zeroized (s₁.setKs { s₁.ks with zeroizeHeld := true }) else s₁

/-- DEVICE_RESET (R85). -/
def execDeviceReset (provLane : Lane) (mkOnce asserted : Bool) (s : State) : Host.Outcome State Fault Refusal :=
  .next (deviceReset provLane mkOnce asserted s)

end Sys2Proof.Machine
end

