-- ==== Sys2Proof/Machine/KeyCommands.lean ====
section
/-! DEFINITION. The key commands: KEK_LOAD, KEK_ERASE, KEY_LOAD, NEXT_DISCARD, SWITCH_REQUEST, GROUP_SWITCH and
GROUP_SWITCH_REQUEST (chapters 4 and 5, R182 to R184). -/

namespace Sys2Proof.Machine

/-! ## KEK_LOAD and KEK_ERASE (R71, R72, R182) -/

/-- The job queue holds as many jobs as it can (R76). -/
def jobsFull (s : State) : Bool := decide (jobPlaces ≤ s.ks.jobs.length)

/-- KEK_LOAD is taken at the Key Store (R71, R182; assumption 15). -/
def kekLoad (cmd : Command) (s : State) : Taken :=
  let b := cmdBody cmd
  match indexOf 4 (field b 0 1) with
  | none => .refuse .badIndex
  | some i =>
    refuseIf s.ks.zeroizeHeld .zeroizeHeld <|
      refuseIf s.ks.mgmtKey.isNone .notProvisioned <|
        refuseIf (jobsFull s) .queueFull <|
          .waits .waitJob (queueJob (.kek i (slice b 1 40) cmd.serial) s)

/-- KEK_LOAD (R71). -/
def execKekLoad (s : State) : Host.Outcome State Fault Refusal := .next (takeCommand 0x40 kekLoad s)

/-- KEK_ERASE is taken at the Key Store (R72, R182). -/
def kekErase (cmd : Command) (s : State) : Taken :=
  match indexOf 4 (field (cmdBody cmd) 0 1) with
  | none => .refuse .badIndex
  | some i =>
    .done .ok (octetsOf 1 i.val ++ boolOctet (look s.ks.keks i).isSome) (s.setKs { s.ks with keks := put s.ks.keks i none })

/-- KEK_ERASE (R72). -/
def execKekErase (s : State) : Host.Outcome State Fault Refusal := .next (takeCommand 0x41 kekErase s)

/-! ## KEY_LOAD (R66, R67, R183) -/

/-- The slot that a reservation writes (R66). -/
def reservedSlot (c : CtxIx) (g : Gen) (kek : KekIx) (salt : BitVec 32) : Slot :=
  ⟨.unwrapping, some (c, g), salt, kek, 0, 0#256⟩

/-- The number of FREE slots has been lowered; below 16 it raises POOL_LOW (R67). -/
def poolCheck (s : State) : State := if s.ks.freeSlots < poolLowMark then raiseDevice .poolLow s else s

/-- The reservation of slot `k` for a context, with its DATA job (R66, R67). -/
def reserve (c : CtxIx) (kek : KekIx) (salt : BitVec 32) (wrapped : Bytes) (k : SlotIx) (s : State) : State :=
  let g := (s.ctx c).generation
  let s₁ := s.setSlot k (reservedSlot c g kek salt)
  let s₂ := s₁.setKs { s₁.ks with freeSlots := s₁.ks.freeSlots - 1 }
  poolCheck (queueJob (.data k c g wrapped) (s₂.setCtx c { s₂.ctx c with next := some (k, .pending) }))

/-- KEY_LOAD is taken at the Key Store (R66, R183). -/
def keyLoad (cmd : Command) (s : State) : Taken :=
  let b := cmdBody cmd
  match indexOf 1024 (field b 0 2), indexOf 4 (field b 2 1) with
  | some c, some kek =>
    refuseIf s.ks.zeroizeHeld .zeroizeHeld <|
    refuseIf ((s.ctx c).state == .undefined) .contextUndefined <|
    refuseIf (s.ctx c).next.isSome .nextOccupied <|
    refuseIf (jobsFull s) .queueFull <|
    match lowestFree s with
    | none => .refuse .noSlot
    | some k =>
      .done .accepted (octetsOf 2 k.val ++ octetsOf 2 (s.ctx c).generation.toNat)
        (reserve c kek (BitVec.ofNat 32 (field b 3 4)) (slice b 7 40) k s)
  | _, _ => .refuse .badIndex

/-- KEY_LOAD (R66). -/
def execKeyLoad (s : State) : Host.Outcome State Fault Refusal := .next (takeCommand 0x42 keyLoad s)

/-! ## NEXT_DISCARD (R99, R183) -/

/-- The effect of a NEXT_DISCARD (R69, R99). -/
def discardNext (c : CtxIx) (s : State) : State := (releaseNext c s).setCtx c { s.ctx c with next := none }

/-- NEXT_DISCARD is taken at the record (R99, R183). -/
def nextDiscard (cmd : Command) (s : State) : Taken :=
  match indexOf 1024 (field (cmdBody cmd) 0 2) with
  | none => .refuse .badIndex
  | some c =>
    let r := s.ctx c
    refuseIf (r.state == .undefined) .contextUndefined <|
      .done .ok (octetsOf 1 (nextCode r.next) ++ octetsOf 1 (marksCode r)) (discardNext c s)

/-- NEXT_DISCARD (R99). -/
def execNextDiscard (s : State) : Host.Outcome State Fault Refusal := .next (takeCommand 0x43 nextDiscard s)

/-! ## SWITCH_REQUEST (R96, R184) -/

/-- A request that finds no READY next slot leaves the switch pending (R92). -/
def pendSwitch (c : CtxIx) (s : State) : State := s.setCtx c { s.ctx c with switchPending := true }

/-- The effect of a switch request (R96): the switch, or the switch-pending mark. -/
def requestSwitch (c : CtxIx) (s : State) : State :=
  if nextReady (s.ctx c) then reportRises c s (switchCtx c s) else pendSwitch c s

/-- The response body of SWITCH_REQUEST, 12 octets (R184). -/
def switchBody (c : CtxIx) (r : Ctx) : Bytes :=
  ctxHead c r ++ octetsOf 1 r.phase.toNat ++ octetsOf 4 r.nextPn ++ octetsOf 1 (marksCode r) ++ octetsOf 1 (nextCode r.next)

/-- SWITCH_REQUEST is taken at the record (R96, R184). -/
def switchRequest (cmd : Command) (s : State) : Taken :=
  match indexOf 1024 (field (cmdBody cmd) 0 2) with
  | none => .refuse .badIndex
  | some c =>
    refuseIf ((s.ctx c).state == .undefined) .contextUndefined <|
      .done (if nextReady (s.ctx c) then .ok else .okPending) (switchBody c ((requestSwitch c s).ctx c)) (requestSwitch c s)

/-- SWITCH_REQUEST (R96). -/
def execSwitchRequest (s : State) : Host.Outcome State Fault Refusal := .next (takeCommand 0x44 switchRequest s)

/-! ## GROUP_SWITCH (R97, R98, R184; assumption 24) -/

/-- A context that a GROUP_SWITCH of group `g` reaches (R97). -/
def inGroup (g : Fin 16) (r : Ctx) : Bool := r.state != .undefined && r.group == g

/-- The response body of GROUP_SWITCH: the counts switched, pended and missed (R184). -/
def groupBody (switched pended missed : Nat) : Bytes := octetsOf 2 switched ++ octetsOf 2 pended ++ octetsOf 2 missed

/-- The contexts to which a GROUP_SWITCH issues its requests (R97). -/
def groupMembers (g : Fin 16) (s : State) : List CtxIx := (List.finRange 1024).filter (fun c => inGroup g (s.ctx c))

/-- GROUP_SWITCH is taken at the Context Table: it issues its requests, and a group with no defined context is answered at
once (R97, R98). -/
def groupSwitch (cmd : Command) (s : State) : Taken :=
  let b := cmdBody cmd
  match indexOf 16 (field b 0 1) with
  | none => .refuse .badValue
  | some g =>
    refuseIf (decide (1 < field b 1 1)) .badValue <|
      if (groupMembers g s).isEmpty then .done .ok (groupBody 0 0 0) s
      else .waits (.groupSwitch g (field b 1 1 == 1) (groupMembers g s) 0 0 0) s

/-- GROUP_SWITCH (R97). -/
def execGroupSwitch (s : State) : Host.Outcome State Fault Refusal := .next (takeCommand 0x45 groupSwitch s)

/-- The command goes on, or ends when its last request has been taken (R98). -/
def groupGoesOn (s₀ : State) (cmd : Command) (g : Fin 16) (hold : Bool) (left : List CtxIx) (switched pended missed : Nat)
    (s : State) : State :=
  if left.isEmpty then answer s₀ cmd .ok (groupBody switched pended missed) s
  else departNew s₀ (setStage cmd (.groupSwitch g hold left switched pended missed) s)

/-- One switch request of a GROUP_SWITCH is taken at its record (R97, R98). -/
def groupSwitchRequest (c : CtxIx) (s : State) : State :=
  match s.agent.progress with
  | none => s
  | some cmd =>
    match cmd.stage with
    | .groupSwitch g hold left switched pended missed =>
      if left.contains c then
        let rest := left.filter (fun x => x != c)
        if inGroup g (s.ctx c) then
          if nextReady (s.ctx c) then
            groupGoesOn s cmd g hold rest (switched + 1) pended missed (reportRises c s (switchCtx c s))
          else if hold then groupGoesOn s cmd g hold rest switched (pended + 1) missed (pendSwitch c s)
          else groupGoesOn s cmd g hold rest switched pended (missed + 1) s
        else groupGoesOn s cmd g hold rest switched pended missed s
      else s
    | _ => s

/-- GROUP_SWITCH_REQUEST (R97). -/
def execGroupSwitchRequest (c : CtxIx) (s : State) : Host.Outcome State Fault Refusal := .next (groupSwitchRequest c s)

end Sys2Proof.Machine
end

