-- ==== Sys2Proof/Machine/Restart.lean ====
section
/-! DEFINITION. DATAPATH_RESTART and its eight steps: RESTART_SELECTOR_CLEAR, the flushes of its second step (LANE_FLUSH,
Machine/CipherLanes.lean), RESTART_CONTEXTS, RESTART_JOB_DISCARD, RESTART_SLOT_SCRUB, RESTART_CAMPUS_DISCARD,
RESTART_AGE_TIMER, RESTART_NOTICE_UNIT and RESTART_SLOTS_FREE_REPORT (R173, R174; assumption 23). -/

namespace Sys2Proof.Machine

/-- DATAPATH_RESTART: the agent issues the first step (R173). -/
def execDatapathRestart (s : State) : Host.Outcome State Fault Refusal :=
  .next (takeCommand 0x0A (fun _ s => .waits (.restart .selector false) s) s)

/-- The restart in progress, its step and whether the Key Store has reported that every slot is FREE. -/
def restartAt (s : State) : Option (Command × RestartStep × Bool) :=
  match s.agent.progress with
  | none => none
  | some c =>
    match c.stage with
    | .restart step free => some (c, step, free)
    | _ => none

/-- Step 1 at the Selector (R19, R173). -/
def restartSelector (s : State) : State :=
  match restartAt s with
  | some (c, .selector, free) => setStage c (.restart (.flush [0, 1, 2, 3]) free) (s.setSelector Selector.reset)
  | _ => s

/-- RESTART_SELECTOR_CLEAR (R19). -/
def execRestartSelectorClear (s : State) : Host.Outcome State Fault Refusal := .next (restartSelector s)

/-! ## Step 3 at the Context Table (R41) -/

/-- The record of a context after the restart's third step (R41). -/
def restartedRecord (r : Ctx) : Ctx := { Ctx.reset with generation := r.generation + 1#16 }

/-- The third step's effect: every context, and every slot that one names (R41). -/
def restartContexts (s : State) : State :=
  { releaseAll (fun _ => true) s with ctxs := every restartedRecord s.ctxs }

/-- Step 3 is taken once the flush-drop reports of step 2 have been taken (R119, R173). The reports that carry the restart
mark are those that step 2's flushes themselves sent; the report of a record that they left FLUSHED and that is answered
ADMITTED later (R117) does not hold the step up (assumption 23). -/
def restartContextStep (s : State) : State :=
  match restartAt s with
  | some (c, .contexts, free) =>
    if s.transit.flushReports.any FlushReport.restart then s else setStage c (.restart .jobs free) (restartContexts s)
  | _ => s

/-- RESTART_CONTEXTS (R41). -/
def execRestartContexts (s : State) : Host.Outcome State Fault Refusal := .next (restartContextStep s)

/-! ## Steps 4 and 5 at the Key Store (R86) -/

/-- Step 4 (R86, item 1). -/
def restartJobs (s : State) : State :=
  match restartAt s with
  | some (c, .jobs, free) => setStage c (.restart .slots free) (s.setKs { s.ks with jobs := [], running := none })
  | _ => s

/-- RESTART_JOB_DISCARD (R86). -/
def execRestartJobDiscard (s : State) : Host.Outcome State Fault Refusal := .next (restartJobs s)

/-- A slot after the restart's fifth step (R86, item 2). -/
def restartSlot (k : Slot) : Slot := if k.state = .free ∨ k.state = .scrubbing then k else startScrub k

/-- Step 5 (R86, item 2). When every slot is FREE already the report is made at once (R86, item 3). -/
def restartSlots (s : State) : State :=
  match restartAt s with
  | some (c, .slots, _) =>
    setStage c (.restart (.campus [0, 1, 2, 3]) (decide (s.ks.freeSlots = slotCount)))
      (s.setKs { s.ks with slots := every restartSlot s.ks.slots })
  | _ => s

/-- RESTART_SLOT_SCRUB (R86). -/
def execRestartSlotScrub (s : State) : Host.Outcome State Fault Refusal := .next (restartSlots s)

/-! ## Steps 6 to 8 and the end (R134, R145, R193) -/

/-- Step 6 at the Campus Queue of lane `l` (R134). -/
def restartCampus (l : Lane) (s : State) : State :=
  match restartAt s with
  | some (c, .campus left, free) =>
    if left.contains l then
      let rest := left.filter (fun k => k != l)
      setStage c (.restart (if rest.isEmpty then .age else .campus rest) free) (s.setCampus l (campusRestart (s.campusOf l)))
    else s
  | _ => s

/-- RESTART_CAMPUS_DISCARD (R134). -/
def execRestartCampusDiscard (l : Lane) (s : State) : Host.Outcome State Fault Refusal := .next (restartCampus l s)

/-- Step 7 at the Age Timer (R145). -/
def restartAge (s : State) : State :=
  match restartAt s with
  | some (c, .age, free) => setStage c (.restart .notice free) (abandonPass s)
  | _ => s

/-- RESTART_AGE_TIMER (R145). -/
def execRestartAgeTimer (s : State) : Host.Outcome State Fault Refusal := .next (restartAge s)

/-- Step 8 at the Notice Unit (R193). -/
def restartNotice (s : State) : State :=
  match restartAt s with
  | some (c, .notice, free) =>
    setStage c (.restart .report free) (s.setNotice { s.notice with queue := [], owed := 0#6 })
  | _ => s

/-- RESTART_NOTICE_UNIT (R193). -/
def execRestartNoticeUnit (s : State) : Host.Outcome State Fault Refusal := .next (restartNotice s)

/-- The agent takes the Key Store's report after step 8, and the command ends (R155, R173). A report that a zeroize has
overtaken is not held any more (`withdrawReport`; assumption 23). -/
def restartReport (s : State) : State :=
  match restartAt s with
  | some (c, .report, true) => answer s c .ok [] s
  | _ => s

/-- RESTART_SLOTS_FREE_REPORT (R86, R173). -/
def execRestartSlotsFreeReport (s : State) : Host.Outcome State Fault Refusal := .next (restartReport s)

end Sys2Proof.Machine
end

