-- ==== Sys2Proof/Machine/ReturnMerges.lean ====
section
/-! DEFINITION. The Return Merge: CAMPUS_FRAME_RECEIVED, TRUNK_TRANSMIT_START, TRUNK_TRANSMIT_END, TRUNK_LINK_DOWN,
TRUNK_LINK_UP (R162 to R164), and NOTICE_DEPARTURE (R190). -/

namespace Sys2Proof.Machine

/-- A Return Merge counter of lane `l` increases by 1. -/
def countMerge (l : Lane) (c : MergeCounter) (s : State) : State := s.setMerge l ((s.mergeOf l).count c 1)

/-- A frame enters the Relay FIFO at the tail, and an IDLE transmitter with the link UP starts (R162, R163). -/
def mergeRelay (f : Bytes) (m : ReturnMerge) : ReturnMerge := mergeStart { m with relay := m.relay ++ [f] }

/-- A sound campus frame without FCS reaches the Relay FIFO (R162, R164; assumption 19). -/
def relayFrame (l : Lane) (f : Bytes) (s : State) : State :=
  let m := s.mergeOf l
  if !m.linkUp then countMerge l .relayDrops s
  else if relayOccupancy m + f.length ≤ relayBytes then s.setMerge l (mergeRelay f m)
  else raiseDevice .relayDrop (countMerge l .relayDrops s)

/-- A frame received whole on a campus port (R162). -/
def campusArrival (l : Lane) (rx : RxFrame) (s : State) : State :=
  if rxLengthOk rx && rx.ending == .good then relayFrame l (rxBody rx) s else countMerge l .relayErrors s

/-- CAMPUS_FRAME_RECEIVED (R162). -/
def execCampusFrameReceived (l : Lane) (rx : RxFrame) (s : State) : Host.Outcome State Fault Refusal :=
  .next (departNew s (campusArrival l rx s))

/-- TRUNK_TRANSMIT_START (R163). -/
def execTrunkTransmitStart (l : Lane) (s : State) : Host.Outcome State Fault Refusal := .next (trunkStart l s)

/-- The frame in transmission has been sent, and the next starts (R163). -/
def mergeEnd (m : ReturnMerge) : ReturnMerge :=
  match m.sending with
  | none => m
  | some (.control _) => mergeStart (({ m with sending := none } : ReturnMerge).count .controlSent 1)
  | some (.relayed _) => mergeStart (({ m with sending := none } : ReturnMerge).count .relayedFrames 1)

/-- TRUNK_TRANSMIT_END: the place released is room for a waiting command or notice (R163, R153, R190). -/
def execTrunkTransmitEnd (l : Lane) (s : State) : Host.Outcome State Fault Refusal :=
  .next (settle s (s.setMerge l (mergeEnd (s.mergeOf l))))

/-- The control-origin frames lost when the link goes down: those queued and one in transmission. -/
def lostControl (m : ReturnMerge) : List ControlFrame :=
  m.control ++ (match m.sending with | some (.control f) => [f] | _ => [])

/-- The relayed frames lost when the link goes down: those queued and one in transmission. -/
def lostRelayed (m : ReturnMerge) : Nat :=
  m.relay.length + (match m.sending with | some (.relayed _) => 1 | _ => 0)

/-- A report that the trunk link is down (R164). -/
def mergeDown (m : ReturnMerge) : ReturnMerge :=
  if m.linkUp then
    ((({ m with control := [], relay := [], sending := none, linkUp := false } : ReturnMerge).count .controlDiscards
      (lostControl m).length).count .noticeDiscards ((lostControl m).filter ControlFrame.notice).length).count
        .relayDrops (lostRelayed m)
  else m

/-- TRUNK_LINK_DOWN (R164). The emptied control output queue is room for a waiting command (R153). -/
def execTrunkLinkDown (l : Lane) (s : State) : Host.Outcome State Fault Refusal :=
  .next (settle s (s.setMerge l (mergeDown (s.mergeOf l))))

/-- A report that the trunk link is up (R164); what waits may start (R163). -/
def mergeUp (m : ReturnMerge) : ReturnMerge := if m.linkUp then m else mergeStart { m with linkUp := true }

/-- TRUNK_LINK_UP (R164); a notice record may depart (R190). -/
def execTrunkLinkUp (l : Lane) (s : State) : Host.Outcome State Fault Refusal :=
  .next (departNew s (s.setMerge l (mergeUp (s.mergeOf l))))

/-- NOTICE_DEPARTURE: the head record leaves when the conditions of R190 hold. -/
def execNoticeDeparture (s : State) : Host.Outcome State Fault Refusal := .next (depart s)

end Sys2Proof.Machine
end

