-- ==== Sys2Proof/Machine/SelectorCommands.lean ====
section
/-! DEFINITION. The Selector commands: SELECTOR_WRITE, SELECTOR_INVALIDATE, SELECTOR_READ and DEFAULT_ACTION_SET
(R14 to R17, R177, R178). -/

namespace Sys2Proof.Machine

/-- The tag match of a body (R177). -/
def tagMatchOf (v : Nat) : TagMatch := if v = 0 then .any else if v = 65535 then .untagged else .vlan (BitVec.ofNat 12 v)

/-- The tag match in a response (R177). -/
def tagMatchCode : TagMatch → Nat
  | .any => 0
  | .untagged => 65535
  | .vlan v => v.toNat

/-- The action of a body whose kind and argument have passed their checks (R177). -/
def actionOf (kind arg : Nat) : SelAction :=
  if kind = 0 then .drop else if kind = 1 then .pass (Fin.ofNat 4 arg) else .protect (Fin.ofNat 1024 arg)

/-- The action kind and argument in a response (R177). -/
def actionOctets : SelAction → Bytes
  | .drop => octetsOf 1 0 ++ octetsOf 2 0
  | .pass c => octetsOf 1 1 ++ octetsOf 2 c.val
  | .protect c => octetsOf 1 2 ++ octetsOf 2 c.val

/-- An action argument that is refused with BAD_VALUE (R177). -/
def badArgument (kind arg : Nat) : Bool :=
  (kind == 0 && arg != 0) || (kind == 1 && decide (3 < arg)) || decide (2 < kind)

/-- The entry that a SELECTOR_WRITE body describes, with the clamp of R9; its hit counter is zeroed (R14). -/
def entryOf (b : Bytes) : SelEntry :=
  { valid := field b 2 1 == 1, lanes := BitVec.ofNat 4 (field b 3 1), tagMatch := tagMatchOf (field b 4 2),
    priority := if field b 6 1 = 255 then none else some (BitVec.ofNat 3 (field b 6 1)),
    address := BitVec.ofNat 48 (field b 7 6), prefixLen := min 48 (field b 13 1), typeMatch := field b 14 1 == 1,
    etherType := BitVec.ofNat 16 (field b 15 2), action := actionOf (field b 17 1) (field b 18 2),
    hits := CounterSet.zero 1 }

/-- An entry in the form of the SELECTOR_WRITE body, 20 octets (R177). -/
def entryOctets (i : SelIx) (e : SelEntry) : Bytes :=
  octetsOf 2 i.val ++ boolOctet e.valid ++ octetsOf 1 e.lanes.toNat ++ octetsOf 2 (tagMatchCode e.tagMatch) ++
    octetsOf 1 (match e.priority with | none => 255 | some p => p.toNat) ++ macOctets e.address ++
    octetsOf 1 e.prefixLen ++ boolOctet e.typeMatch ++ octetsOf 2 e.etherType.toNat ++ actionOctets e.action

/-- SELECTOR_WRITE is taken at the Selector (R14, R177). -/
def selectorWrite (c : Command) (s : State) : Taken :=
  let b := cmdBody c
  match indexOf 512 (field b 0 2) with
  | none => .refuse .badIndex
  | some i =>
    refuseIf (field b 17 1 == 2 && decide (1023 < field b 18 2)) .badIndex <|
    refuseIf (decide (1 < field b 2 1)) .badValue <|
    refuseIf (field b 3 1 == 0 || decide (15 < field b 3 1)) .badValue <|
    refuseIf (decide (4094 < field b 4 2) && field b 4 2 != 65535) .badValue <|
    refuseIf (decide (7 < field b 6 1) && field b 6 1 != 255) .badValue <|
    refuseIf (decide (1 < field b 14 1)) .badValue <|
    refuseIf (badArgument (field b 17 1) (field b 18 2)) .badValue <|
      .done (okOr (decide (48 < field b 13 1))) (entryOctets i (entryOf b)) (s.setEntry i (entryOf b))

/-- SELECTOR_WRITE (R177). -/
def execSelectorWrite (s : State) : Host.Outcome State Fault Refusal := .next (takeCommand 0x20 selectorWrite s)

/-- SELECTOR_INVALIDATE is taken at the Selector (R15, R178). -/
def selectorInvalidate (c : Command) (s : State) : Taken :=
  match indexOf 512 (field (cmdBody c) 0 2) with
  | none => .refuse .badIndex
  | some i =>
    .done .ok (octetsOf 2 i.val ++ boolOctet (s.entry i).valid) (s.setEntry i { s.entry i with valid := false })

/-- SELECTOR_INVALIDATE (R178). -/
def execSelectorInvalidate (s : State) : Host.Outcome State Fault Refusal :=
  .next (takeCommand 0x21 selectorInvalidate s)

/-- SELECTOR_READ is taken at the Selector (R16, R178). -/
def selectorRead (c : Command) (s : State) : Taken :=
  match indexOf 512 (field (cmdBody c) 0 2) with
  | none => .refuse .badIndex
  | some i =>
    let flag := field (cmdBody c) 2 1
    refuseIf (decide (1 < flag)) .badValue <|
      .done .ok (entryOctets i (s.entry i) ++ counterSetOctets (s.entry i).hits)
        (s.setEntry i { s.entry i with hits := clearedIf (flag == 1) (s.entry i).hits })

/-- SELECTOR_READ (R178). -/
def execSelectorRead (s : State) : Host.Outcome State Fault Refusal := .next (takeCommand 0x22 selectorRead s)

/-- The default action of a body that has passed its checks (R178). -/
def defaultOf (kind cls : Nat) : DefaultAction := if kind = 0 then .drop else .pass (Fin.ofNat 4 cls)

/-- DEFAULT_ACTION_SET is taken at the Selector (R17, R178). -/
def defaultActionSet (c : Command) (s : State) : Taken :=
  let kind := field (cmdBody c) 0 1
  let cls := field (cmdBody c) 1 1
  refuseIf (decide (1 < kind) || (kind == 0 && cls != 0) || (kind == 1 && decide (3 < cls))) .badValue <|
    .done .ok (defaultOctets (defaultOf kind cls)) (s.setSelector { s.selector with default := defaultOf kind cls })

/-- DEFAULT_ACTION_SET (R178). -/
def execDefaultActionSet (s : State) : Host.Outcome State Fault Refusal := .next (takeCommand 0x23 defaultActionSet s)

end Sys2Proof.Machine
end

