-- ==== Sys2Proof/Machine/TrunkReceive.lean ====
section
/-! DEFINITION. Trunk Receive and the Selector: TRUNK_FRAME_TAKEN, SELECTOR_LOOKUP, LANE_FRAME_TAKE and LANE_DROP_REPORT
(chapter 1, R107, R149 to R152). -/

namespace Sys2Proof.Machine

/-! ## Arrival at the Control Agent (R149 to R152) -/

/-- An intake counter of the agent increases by 1. -/
def countAgent (c : AgentCounter) (s : State) : State := s.setAgent (s.agent.count c 1)

/-- A frame that passed its checks is offered to the intake queue (R152). -/
def enterIntake (l : Lane) (f : Bytes) (auth : Bool) (s : State) : State :=
  if s.agent.intake.length < intakePlaces then
    s.setAgent (({ s.agent with intake := s.agent.intake ++ [⟨l, f, auth⟩] } : Agent).count .taken 1)
  else raiseDevice .controlDrop (countAgent .overflows s)

/-- A diverted control frame is taken at the Control Agent (R149 to R152). -/
def agentArrival (l : Lane) (f : Bytes) (s : State) : State :=
  if !ctlFormOk f then countAgent .malformed s
  else
    match s.ks.mgmtKey with
    | none => if l = s.provLane then enterIntake l f false s else countAgent .wrongLane s
    | some k =>
      if cmac k (ctlCovered f) = ctlIntegrity f then enterIntake l f true s
      else raiseDevice .authFail (countAgent .authFailures s)

/-! ## Acceptance and admission (R1 to R4) -/

/-- A lane receive counter increases by `k`. -/
def countRx (l : Lane) (c : RxCounter) (k : Nat) (s : State) : State := s.setRx l ((s.rxOf l).count c k)

/-- An accepted frame is a control frame (R3). -/
def isControlFrame (s : State) (f : Bytes) : Bool :=
  destOf f == s.agent.address && (etherTypeOf f).toNat == controlType

/-- A data frame is offered to the receive buffer (R4). -/
def admitData (l : Lane) (f : Bytes) (s : State) : State :=
  if octetCount (s.rxOf l).buffer + f.length ≤ rxBufferBytes then
    s.setRx l { s.rxOf l with buffer := (s.rxOf l).buffer ++ [f] }
  else countRx l .receiveOverruns 1 s

/-- An accepted frame, without its FCS (R1, R3, R4). -/
def acceptFrame (l : Lane) (f : Bytes) (s : State) : State :=
  let s₁ := countRx l .acceptedBytes f.length (countRx l .acceptedFrames 1 s)
  if isControlFrame s f then agentArrival l f (countRx l .controlFrames 1 s₁) else admitData l f s₁

/-- A frame is taken at Trunk Receive: its length is checked, then its FCS (R1; assumption 9). -/
def trunkArrival (l : Lane) (rx : RxFrame) (s : State) : State :=
  if !rxLengthOk rx then countRx l .lengthErrors 1 s
  else
    match rx.ending with
    | .good => acceptFrame l (rxBody rx) s
    | .badFcs => countRx l .fcsErrors 1 s
    | .badEnd => countRx l .fcsErrors 1 s

/-- TRUNK_FRAME_TAKEN (R1 to R4, R149 to R153). -/
def execTrunkFrameTaken (l : Lane) (rx : RxFrame) (s : State) : Host.Outcome State Fault Refusal :=
  .next (settle s (trunkArrival l rx s))

/-! ## The Selector's lookup (R10 to R12) -/

/-- The tag match of an entry holds for a frame (R10, item 3). -/
def tagMatches (m : TagMatch) (f : Bytes) : Bool :=
  match m with
  | .any => true
  | .untagged => !isTagged f
  | .vlan v => isTagged f && vlanOf f == v

/-- The priority of an entry holds for a frame (R10, item 4). -/
def priorityMatches (p : Option (BitVec 3)) (f : Bytes) : Bool :=
  match p with
  | none => true
  | some p => isTagged f && pcpOf f == p

/-- The first `n` bits of two addresses are equal (R10, item 5). -/
def prefixMatches (n : Nat) (a b : Mac) : Bool := a >>> (48 - n) == b >>> (48 - n)

/-- An entry matches a frame of lane `l` (R10). -/
def entryMatches (e : SelEntry) (l : Lane) (f : Bytes) : Bool :=
  e.valid && e.lanes.getLsbD l.val && tagMatches e.tagMatch f && priorityMatches e.priority f &&
    prefixMatches e.prefixLen (destOf f) e.address && (!e.typeMatch || etherTypeOf f == e.etherType)

/-- The index of the first matching entry of a list that starts at index `i` (R11). -/
def findMatch (l : Lane) (f : Bytes) : List SelEntry → Nat → Option Nat
  | [], _ => none
  | e :: es, i => if entryMatches e l f then some i else findMatch l f es (i + 1)

/-- The matching entry of a lookup, if any (R11). -/
def matchingEntry (l : Lane) (f : Bytes) (s : State) : Option SelIx :=
  match findMatch l f s.selector.entries.toList 0 with
  | none => none
  | some i => indexOf 512 i

/-- The head frame of lane `l` is discarded and a counter of the lane increases (R12). -/
def dropHead (l : Lane) (c : RxCounter) (rest : List Bytes) (s : State) : State :=
  countRx l c 1 (s.setRx l { s.rxOf l with buffer := rest, headAction := none })

/-- The head frame of lane `l` receives its action (R12). -/
def setHead (l : Lane) (a : HeadAction) (s : State) : State := s.setRx l { s.rxOf l with headAction := some a }

/-- The effects of a lookup's action at Trunk Receive (R12). -/
def lookupHead (l : Lane) (f : Bytes) (rest : List Bytes) (s : State) : State :=
  match matchingEntry l f s with
  | some e =>
    let s₁ := s.setEntry e { s.entry e with hits := (s.entry e).hits.bump 0 1 }
    match (s.entry e).action with
    | .drop => dropHead l .selectorDrops rest s₁
    | .pass cls => setHead l (.pass cls (some e)) s₁
    | .protect c => setHead l (.protect c e) s₁
  | none =>
    match s.selector.default with
    | .drop => dropHead l .defaultDrops rest s
    | .pass cls => setHead l (.pass cls none) (countRx l .defaultPasses 1 s)

/-- A lookup is taken for the head frame of lane `l` when that frame has not been looked up (R5, R11); the Cipher Lane then
takes the frame if it may (R107). Any events, changes of the list among them, may be taken between the one that makes the frame
the head and its lookup, which reads the list as it then stands (DESIGN CHOICE, assumption 32). -/
def selectorLookup (l : Lane) (s : State) : State :=
  match (s.rxOf l).headAction, (s.rxOf l).buffer with
  | none, f :: rest => laneTake l (lookupHead l f rest s)
  | _, _ => s

/-- SELECTOR_LOOKUP (R11, R12). -/
def execSelectorLookup (l : Lane) (s : State) : Host.Outcome State Fault Refusal := .next (selectorLookup l s)

/-- LANE_FRAME_TAKE (R107). -/
def execLaneFrameTake (l : Lane) (s : State) : Host.Outcome State Fault Refusal := .next (laneTake l s)

/-! ## Reports from the Cipher Lane (R7) -/

/-- The lane receive counter of a reported drop. -/
def LaneDrop.counter : LaneDrop → RxCounter
  | .passOversize => .passOversizeDrops
  | .noContext => .noContextDrops

/-- Report `n` of those in transit is taken at Trunk Receive (R7). -/
def laneDropReport (n : Nat) (s : State) : State :=
  match s.transit.laneReports[n]? with
  | none => s
  | some (l, d) =>
    countRx l d.counter 1 (s.setTransit { s.transit with laneReports := s.transit.laneReports.eraseIdx n })

/-- LANE_DROP_REPORT (R7). -/
def execLaneDropReport (n : Nat) (s : State) : Host.Outcome State Fault Refusal := .next (laneDropReport n s)

end Sys2Proof.Machine
end

