-- ==== Sys2Proof/Machine/Dispatch.lean ====
section
/-! DEFINITION. What each command does: one arm per row of spec/opcode_table.json, in the table's order. -/

namespace Sys2Proof.Machine

/-- The effect of a command on everything but the queue of waiting commands. -/
def exec (i : Instr) (s : State) : Host.Outcome State Fault Refusal :=
  match i with
  | .deviceReset provLane mkOnce zeroizeAsserted => Sys2Proof.Machine.execDeviceReset provLane mkOnce zeroizeAsserted s
  | .trunkFrameTaken lane rx => Sys2Proof.Machine.execTrunkFrameTaken lane rx s
  | .selectorLookup lane => Sys2Proof.Machine.execSelectorLookup lane s
  | .laneFrameTake lane => Sys2Proof.Machine.execLaneFrameTake lane s
  | .admissionRequest lane => Sys2Proof.Machine.execAdmissionRequest lane s
  | .passRecordCompletion lane => Sys2Proof.Machine.execPassRecordCompletion lane s
  | .protectRecordCompletion lane => Sys2Proof.Machine.execProtectRecordCompletion lane s
  | .inFlightDecrease slot ctx gen => Sys2Proof.Machine.execInFlightDecrease slot ctx gen s
  | .flushDropReport n => Sys2Proof.Machine.execFlushDropReport n s
  | .queueDropReport n => Sys2Proof.Machine.execQueueDropReport n s
  | .laneDropReport n => Sys2Proof.Machine.execLaneDropReport n s
  | .campusTransmitStart lane => Sys2Proof.Machine.execCampusTransmitStart lane s
  | .campusTransmitEnd lane => Sys2Proof.Machine.execCampusTransmitEnd lane s
  | .campusLinkDown lane => Sys2Proof.Machine.execCampusLinkDown lane s
  | .campusLinkUp lane => Sys2Proof.Machine.execCampusLinkUp lane s
  | .unwrapJobStart => Sys2Proof.Machine.execUnwrapJobStart s
  | .unwrapJobComplete => Sys2Proof.Machine.execUnwrapJobComplete s
  | .dataResult n => Sys2Proof.Machine.execDataResult n s
  | .scrubComplete slot => Sys2Proof.Machine.execScrubComplete slot s
  | .referenceTick => Sys2Proof.Machine.execReferenceTick s
  | .countStep => Sys2Proof.Machine.execCountStep s
  | .ageTick => Sys2Proof.Machine.execAgeTick s
  | .passStart => Sys2Proof.Machine.execPassStart s
  | .sweepVisit => Sys2Proof.Machine.execSweepVisit s
  | .commandBegin => Sys2Proof.Machine.execCommandBegin s
  | .identify => Sys2Proof.Machine.execIdentify s
  | .deviceStatusRead => Sys2Proof.Machine.execDeviceStatusRead s
  | .statusSnapshot block => Sys2Proof.Machine.execStatusSnapshot block s
  | .mgmtKeySet => Sys2Proof.Machine.execMgmtKeySet s
  | .deviceAddressSet => Sys2Proof.Machine.execDeviceAddressSet s
  | .envelopeTypeSet => Sys2Proof.Machine.execEnvelopeTypeSet s
  | .timeBaseSet => Sys2Proof.Machine.execTimeBaseSet s
  | .sweepRangeSet => Sys2Proof.Machine.execSweepRangeSet s
  | .laneSet => Sys2Proof.Machine.execLaneSet s
  | .laneCountersRead => Sys2Proof.Machine.execLaneCountersRead s
  | .laneSnapshot block => Sys2Proof.Machine.execLaneSnapshot block s
  | .datapathRestart => Sys2Proof.Machine.execDatapathRestart s
  | .restartSelectorClear => Sys2Proof.Machine.execRestartSelectorClear s
  | .laneFlush lane cause => Sys2Proof.Machine.execLaneFlush lane cause s
  | .restartContexts => Sys2Proof.Machine.execRestartContexts s
  | .restartJobDiscard => Sys2Proof.Machine.execRestartJobDiscard s
  | .restartSlotScrub => Sys2Proof.Machine.execRestartSlotScrub s
  | .restartCampusDiscard lane => Sys2Proof.Machine.execRestartCampusDiscard lane s
  | .restartAgeTimer => Sys2Proof.Machine.execRestartAgeTimer s
  | .restartNoticeUnit => Sys2Proof.Machine.execRestartNoticeUnit s
  | .restartSlotsFreeReport => Sys2Proof.Machine.execRestartSlotsFreeReport s
  | .noticeRouteSet => Sys2Proof.Machine.execNoticeRouteSet s
  | .noticeEnableSet => Sys2Proof.Machine.execNoticeEnableSet s
  | .attentionClear => Sys2Proof.Machine.execAttentionClear s
  | .selectorWrite => Sys2Proof.Machine.execSelectorWrite s
  | .selectorInvalidate => Sys2Proof.Machine.execSelectorInvalidate s
  | .selectorRead => Sys2Proof.Machine.execSelectorRead s
  | .defaultActionSet => Sys2Proof.Machine.execDefaultActionSet s
  | .contextDefine => Sys2Proof.Machine.execContextDefine s
  | .contextModify => Sys2Proof.Machine.execContextModify s
  | .contextClear => Sys2Proof.Machine.execContextClear s
  | .contextRead => Sys2Proof.Machine.execContextRead s
  | .contextFlag => Sys2Proof.Machine.execContextFlag s
  | .contextCountersRead => Sys2Proof.Machine.execContextCountersRead s
  | .kekLoad => Sys2Proof.Machine.execKekLoad s
  | .kekErase => Sys2Proof.Machine.execKekErase s
  | .keyLoad => Sys2Proof.Machine.execKeyLoad s
  | .nextDiscard => Sys2Proof.Machine.execNextDiscard s
  | .switchRequest => Sys2Proof.Machine.execSwitchRequest s
  | .groupSwitch => Sys2Proof.Machine.execGroupSwitch s
  | .groupSwitchRequest ctx => Sys2Proof.Machine.execGroupSwitchRequest ctx s
  | .keyStoreZeroize => Sys2Proof.Machine.execKeyStoreZeroize s
  | .contextZeroize => Sys2Proof.Machine.execContextZeroize s
  | .ageTimerZeroize => Sys2Proof.Machine.execAgeTimerZeroize s
  | .agentZeroize => Sys2Proof.Machine.execAgentZeroize s
  | .jobDiscardReport n => Sys2Proof.Machine.execJobDiscardReport n s
  | .zeroizeRelease => Sys2Proof.Machine.execZeroizeRelease s
  | .campusFrameReceived lane rx => Sys2Proof.Machine.execCampusFrameReceived lane rx s
  | .trunkTransmitStart lane => Sys2Proof.Machine.execTrunkTransmitStart lane s
  | .trunkTransmitEnd lane => Sys2Proof.Machine.execTrunkTransmitEnd lane s
  | .trunkLinkDown lane => Sys2Proof.Machine.execTrunkLinkDown lane s
  | .trunkLinkUp lane => Sys2Proof.Machine.execTrunkLinkUp lane s
  | .noticeDeparture => Sys2Proof.Machine.execNoticeDeparture s

end Sys2Proof.Machine
end

