-- ==== Sys2Proof/Safety.lean ====
section
/-! DEFINITION. The terms in which claims are stated: the invariants of a sound device, what the end of an event may change
beside the event's own effect, what answering a command leaves, how rises are handled, and what the end of a tenure does to the
slots. -/

namespace Sys2Proof.Machine

/-! ## Invariants -/

/-- No counter of the set exceeds 2^48 − 1. -/
def CounterSet.bounded {n : Nat} (cs : CounterSet n) : Prop := ∀ i : Fin n, look cs.vals i ≤ counterMax

/-- The key block count, the key age and every 48-bit counter of the device lie in their ranges (R36). -/
structure CountersBounded (s : State) : Prop where
  rx       : ∀ l, (s.rxOf l).counters.bounded
  hits     : ∀ e, (s.entry e).hits.bounded
  ctx      : ∀ c, (s.ctx c).counters.bounded
  blocks   : ∀ c, (s.ctx c).blocks ≤ counterMax
  age      : ∀ c, (s.ctx c).age ≤ ageMax
  jobs     : s.ks.successes ≤ counterMax ∧ s.ks.failures ≤ counterMax ∧ s.ks.setAside ≤ counterMax
  flush    : ∀ l, (s.cipherOf l).flushDrops.bounded
  campus   : ∀ l, (s.campusOf l).counters.bounded
  lost     : s.age.lostTicks ≤ counterMax
  agent    : s.agent.counters.bounded
  merge    : ∀ l, (s.mergeOf l).counters.bounded

/-- Every buffer and queue holds at most what the spec gives it room for, and a place is reserved in a control output queue
exactly while a command of its lane is in progress (R4, R76, R106, R121, R138, R148, R160, R161, R185). -/
structure WithinCapacity (s : State) : Prop where
  rxBuffer : ∀ l, octetCount (s.rxOf l).buffer ≤ rxBufferBytes
  records  : ∀ l, (s.cipherOf l).recs.length ≤ laneRecords
  campus   : ∀ l, totalOccupancy (s.campusOf l) ≤ campusBufferBytes
  relay    : ∀ l, relayOccupancy (s.mergeOf l) ≤ relayBytes
  control  : ∀ l, placesUsed (s.mergeOf l) ≤ controlPlaces
  reserved : ∀ l, (s.mergeOf l).reserved = true ↔ ∃ c, s.agent.progress = some c ∧ c.lane = l
  intake   : s.agent.intake.length ≤ intakePlaces
  jobs     : s.ks.jobs.length ≤ jobPlaces
  notices  : s.notice.queue.length ≤ noticePlaces
  owed     : s.age.owed ≤ owedMax

/-- A slot that is FREE or SCRUBBING holds no key material and no reference, and a FREE slot has no owner (R65, R70). That a
SCRUBBING slot is zero from the start of its scrub is the model's choice (assumption 31). -/
def SlotClean (k : Slot) : Prop :=
  (k.state = .free ∨ k.state = .scrubbing → k.key = 0#256 ∧ k.salt = 0#32 ∧ k.kek = 0 ∧ k.inFlight = 0) ∧
    (k.state = .free → k.owner = none)

/-- Every slot is clean, and the number of FREE slots that the Key Store keeps is the number of slots in FREE (R67, R70). -/
structure SlotsSound (s : State) : Prop where
  clean : ∀ k, SlotClean (s.slot k)
  count : s.ks.freeSlots = slotsIn s.ks .free

/-- The threshold fields lie in their stored ranges (R50). -/
structure ThresholdsInRange (t : Thresholds) : Prop where
  pnSoft    : 1 ≤ t.pnSoft ∧ t.pnSoft ≤ lastPn
  blockSoft : 1 ≤ t.blockSoft ∧ t.blockSoft ≤ t.blockHard
  blockHard : t.blockHard ≤ 4294967295
  ageSoft   : 1 ≤ t.ageSoft ∧ t.ageSoft ≤ t.ageHard
  ageHard   : t.ageHard ≤ 65535

/-- A context record holds values that its state allows (R23, R26, R44, R50). -/
structure CtxSound (r : Ctx) : Prop where
  thresholds : ThresholdsInRange r.thresholds
  current    : r.state = .active ↔ r.current.isSome
  issuing    : r.state = .active → 1 ≤ r.nextPn ∧ r.nextPn ≤ lastPn
  silent     : r.state ≠ .active → r.nextPn = 0
  fresh      : r.state = .undefined ∨ r.state = .keyless → r.blocks = 0 ∧ r.age = 0 ∧ r.softReached = false
  undefined  : r.state = .undefined → r.next = none ∧ r.phase = 0#2 ∧ r.switchPending = false
  keyless    : r.state = .keyless → r.phase = r.initialPhase

/-- The steps of a restart that follow the third (R173). -/
def RestartStep.afterContexts : RestartStep → Bool
  | .selector => false
  | .flush _ => false
  | .contexts => false
  | .jobs => true
  | .slots => true
  | .campus _ => true
  | .age => true
  | .notice => true
  | .report => true

/-- While an owed mark of any kind is set, the Notice Queue is full (R189). From the third step of a restart on, no context
has an owed mark or an enable, so that the restart's eighth step leaves no mark behind (R41, R193). -/
structure OwedMarksWait (s : State) : Prop where
  bound   : s.notice.queue.length ≤ noticePlaces
  device  : s.notice.owed ≠ 0#6 → s.notice.queue.length = noticePlaces
  context : ∀ c, (s.ctx c).owed ≠ 0#8 → s.notice.queue.length = noticePlaces
  restart : ∀ cmd step free, s.agent.progress = some cmd → cmd.stage = .restart step free → step.afterContexts = true →
    ∀ c, (s.ctx c).owed = 0#8 ∧ (s.ctx c).enables = 0#8

/-! ## What each command may reach -/

/-- The parts of the state, in which frames are stated. -/
inductive Part where
  /-- Trunk Receive of a lane. -/
  | rx (l : Lane)
  /-- The selector list and the default action. -/
  | selector
  /-- A context record, but for its owed marks. -/
  | context (c : CtxIx)
  /-- A key slot. -/
  | slot (k : SlotIx)
  /-- The KEK Table and the management key. -/
  | keys
  /-- The Key Store's other fields: the number of FREE slots, jobs, failures, counters and the zeroize-held note. -/
  | store
  /-- The Cipher Lane of a lane. -/
  | cipher (l : Lane)
  /-- The Campus Queue of a lane. -/
  | campus (l : Lane)
  /-- The Age Timer. -/
  | age
  /-- The device address and the envelope type value. -/
  | settings
  /-- The notice route and the notice enables. -/
  | noticeSettings
  /-- The Relay FIFO and the link state of a Return Merge. -/
  | relay (l : Lane)
  /-- The Control Agent, the Notice Unit, the Return Merges, the owed marks of every context and the free values drawn. -/
  | control
  /-- The messages in transit. -/
  | transit
  /-- The straps as sampled. -/
  | straps
  /-- The commands waiting. -/
  | pending
deriving DecidableEq, Repr

/-- A part of the state holds the same in both. -/
def Part.same (s t : State) : Part → Prop
  | .rx l => t.rxOf l = s.rxOf l
  | .selector => t.selector = s.selector
  | .context c => { t.ctx c with owed := 0#8 } = { s.ctx c with owed := 0#8 }
  | .slot k => t.slot k = s.slot k
  | .keys => t.ks.keks = s.ks.keks ∧ t.ks.mgmtKey = s.ks.mgmtKey
  | .store => ({ t.ks with slots := s.ks.slots, keks := s.ks.keks, mgmtKey := s.ks.mgmtKey } : KeyStore) = s.ks
  | .cipher l => t.cipherOf l = s.cipherOf l
  | .campus l => t.campusOf l = s.campusOf l
  | .age => t.age = s.age
  | .settings => t.agent.address = s.agent.address ∧ t.agent.envelopeType = s.agent.envelopeType
  | .noticeSettings =>
    t.notice.route = s.notice.route ∧ t.notice.enables = s.notice.enables ∧ t.notice.master = s.notice.master
  | .relay l => (t.mergeOf l).relay = (s.mergeOf l).relay ∧ (t.mergeOf l).linkUp = (s.mergeOf l).linkUp
  | .control => t.agent = s.agent ∧ t.notice = s.notice ∧ t.merge = s.merge ∧ t.draws = s.draws ∧
      ∀ c, (t.ctx c).owed = (s.ctx c).owed
  | .transit => t.transit = s.transit
  | .straps => t.provLane = s.provLane ∧ t.mkOnce = s.mkOnce
  | .pending => t.pending = s.pending

/-- A context and the slots that its record names: its current slot and its next slot. -/
def ctxParts (c : CtxIx) (s : State) : List Part :=
  .context c :: ((s.ctx c).current.toList ++ ((s.ctx c).next.map Prod.fst).toList).map .slot

/-- The context that a command body names in its first two octets, when the command of this code waits to be taken. -/
def namedCtx (code : Nat) (s : State) : List CtxIx :=
  match begunCommand code s with
  | none => []
  | some c => (indexOf 1024 (field (cmdBody c) 0 2)).toList

/-- The lane that a command body names in its first octet, when the command of this code waits to be taken. -/
def namedLane (code : Nat) (s : State) : List Lane :=
  match begunCommand code s with
  | none => []
  | some c => (indexOf 4 (field (cmdBody c) 0 1)).toList

/-- The lane whose counters the command in progress gathers. -/
def gatheredLane (s : State) : List Lane :=
  match s.agent.progress with
  | none => []
  | some c =>
    match c.stage with
    | .gatherLane l _ _ _ _ _ => [l]
    | _ => []

/-- The slots that the PROTECT records of a lane hold. -/
def heldSlots (recs : List Rec) : List Part :=
  recs.filterMap (fun r => match r with | .protect p => some (.slot p.slot) | _ => none)

/-- The slot of the running job, when it is a DATA job. -/
def jobSlot (ks : KeyStore) : List Part :=
  match ks.running with
  | some ⟨.data k _ _ _, _⟩ => [.slot k]
  | _ => []

/-- Every context. -/
def allContexts : List Part := (List.finRange 1024).map .context

/-- Every slot. -/
def allSlots : List Part := (List.finRange 2304).map .slot

/-- The parts that a command may reach from a state. A part outside the list is left as it was. -/
def reach (i : Instr) (s : State) : List Part :=
  match i with
  | .deviceReset _ _ _ =>
    [.selector, .keys, .store, .age, .settings, .noticeSettings, .control, .transit, .straps] ++ allContexts ++ allSlots ++
      (List.finRange 4).map .rx ++ (List.finRange 4).map .cipher ++ (List.finRange 4).map .campus ++
      (List.finRange 4).map .relay
  | .trunkFrameTaken l _ => [.rx l, .control]
  | .selectorLookup l => [.rx l, .selector, .cipher l, .transit]
  | .laneFrameTake l => [.rx l, .cipher l, .transit]
  | .admissionRequest l =>
    [.rx l, .cipher l, .transit, .control] ++
      (match (s.cipherOf l).request with | none => [] | some q => ctxParts q.ctx s)
  | .passRecordCompletion l => [.rx l, .cipher l, .campus l, .transit]
  | .protectRecordCompletion l => [.rx l, .cipher l, .campus l, .transit] ++ heldSlots ((s.cipherOf l).recs.take 1)
  | .inFlightDecrease k _ _ => [.slot k]
  | .flushDropReport n => [.transit, .control] ++ (s.transit.flushReports[n]?.map (fun m => Part.context m.ctx)).toList
  | .queueDropReport n => [.transit, .control] ++ (s.transit.queueReports[n]?.map (fun m => Part.context m.1)).toList
  | .laneDropReport n => .transit :: (s.transit.laneReports[n]?.map (fun m => Part.rx m.1)).toList
  | .campusTransmitStart l => [.campus l]
  | .campusTransmitEnd l => [.campus l]
  | .campusLinkDown l => [.campus l]
  | .campusLinkUp l => [.campus l]
  | .unwrapJobStart => [.store, .transit]
  | .unwrapJobComplete => [.store, .transit, .keys, .control] ++ jobSlot s.ks
  | .dataResult n =>
    [.transit, .store, .control] ++
      (match s.transit.results[n]? with | none => [] | some r => .slot r.slot :: ctxParts r.ctx s)
  | .scrubComplete k => [.slot k, .store, .control]
  | .referenceTick => [.age, .control]
  | .countStep => [.age, .control]
  | .ageTick => [.age, .control]
  | .passStart => [.age]
  | .sweepVisit =>
    .control ::
      (match nextVisit s with
       | none => []
       | some (none, c, _) => .age :: ctxParts c s
       | some (some _, c, _) => .transit :: ctxParts c s)
  | .commandBegin => [.control]
  | .identify => [.control]
  | .deviceStatusRead => [.control]
  | .statusSnapshot _ => [.control]
  | .mgmtKeySet => [.keys, .store, .transit, .control]
  | .deviceAddressSet => [.settings, .control]
  | .envelopeTypeSet => [.settings, .control]
  | .timeBaseSet => [.age, .control]
  | .sweepRangeSet => [.age, .control]
  | .laneSet => .control :: (namedLane 0x08 s).map .campus
  | .laneCountersRead => [.control]
  | .laneSnapshot b =>
    .control ::
      (match b with
       | .trunkReceive => (gatheredLane s).map .rx
       | .cipherLane => (gatheredLane s).map .cipher
       | .campusQueue => (gatheredLane s).map .campus
       | .returnMerge => [])
  | .datapathRestart => [.control]
  | .restartSelectorClear => [.selector, .control]
  | .laneFlush l _ => [.rx l, .cipher l, .transit, .control] ++ heldSlots (s.cipherOf l).recs
  | .restartContexts => .control :: allContexts ++ allSlots
  | .restartJobDiscard => [.store, .control]
  | .restartSlotScrub => .control :: allSlots
  | .restartCampusDiscard l => [.campus l, .control]
  | .restartAgeTimer => [.age, .transit, .control]
  | .restartNoticeUnit => [.control]
  | .restartSlotsFreeReport => [.control]
  | .noticeRouteSet => [.noticeSettings, .control]
  | .noticeEnableSet => [.noticeSettings, .control]
  | .attentionClear => .control :: (namedCtx 0x12 s).map .context
  | .selectorWrite => [.selector, .control]
  | .selectorInvalidate => [.selector, .control]
  | .selectorRead => [.selector, .control]
  | .defaultActionSet => [.selector, .control]
  | .contextDefine => .control :: (namedCtx 0x30 s).map .context
  | .contextModify => .control :: (namedCtx 0x31 s).flatMap (fun c => ctxParts c s)
  | .contextClear => .control :: (namedCtx 0x32 s).flatMap (fun c => ctxParts c s)
  | .contextRead => [.control]
  | .contextFlag => .control :: (namedCtx 0x34 s).map .context
  | .contextCountersRead => .control :: (namedCtx 0x35 s).map .context
  | .kekLoad => [.store, .transit, .control]
  | .kekErase => [.keys, .control]
  | .keyLoad =>
    [.store, .transit, .control] ++ (namedCtx 0x42 s).map .context ++ (lowestFree s).toList.map .slot
  | .nextDiscard => .control :: (namedCtx 0x43 s).flatMap (fun c => ctxParts c s)
  | .switchRequest => .control :: (namedCtx 0x44 s).flatMap (fun c => ctxParts c s)
  | .groupSwitch => [.control]
  | .groupSwitchRequest c => .control :: ctxParts c s
  | .keyStoreZeroize => [.keys, .store, .transit, .control] ++ allSlots
  | .contextZeroize => allContexts ++ allSlots
  | .ageTimerZeroize => [.age, .transit]
  | .agentZeroize => [.control]
  | .jobDiscardReport _ => [.transit, .control]
  | .zeroizeRelease => [.store]
  | .campusFrameReceived l _ => [.relay l, .control]
  | .trunkTransmitStart l => [.relay l, .control]
  | .trunkTransmitEnd l => [.relay l, .control]
  | .trunkLinkDown l => [.relay l, .control]
  | .trunkLinkUp l => [.relay l, .control]
  | .noticeDeparture => [.control]

/-! ## The end of an event -/

/-- `t` is `u` but for what the end of an event may change beside the event's own effect: the Control Agent may purge its
intake, begin commands and answer those it refuses at once (R153, R154), and a notice record may depart (R189, R190). That
reaches intake, the command in progress, intake counters, device flags, the Notice Queue with its sequence and owed marks,
control output queues, the free values drawn, and the counters of a Return Merge whose link is DOWN, where the response of a
command refused at once is discarded (R164), and nothing else. -/
structure Settled (u t : State) : Prop where
  rx           : t.rx = u.rx
  selector     : t.selector = u.selector
  ctxs         : ∀ c, { t.ctx c with owed := 0#8 } = { u.ctx c with owed := 0#8 }
  ks           : t.ks = u.ks
  cipher       : t.cipher = u.cipher
  campus       : t.campus = u.campus
  age          : t.age = u.age
  address      : t.agent.address = u.agent.address
  envelopeType : t.agent.envelopeType = u.agent.envelopeType
  enables      : t.notice.enables = u.notice.enables
  master       : t.notice.master = u.notice.master
  route        : t.notice.route = u.notice.route
  relay        : ∀ l, (t.mergeOf l).relay = (u.mergeOf l).relay
  counters     : ∀ l, (u.mergeOf l).linkUp = true → (t.mergeOf l).counters = (u.mergeOf l).counters
  linkUp       : ∀ l, (t.mergeOf l).linkUp = (u.mergeOf l).linkUp
  straps       : t.provLane = u.provLane ∧ t.mkOnce = u.mkOnce
  transit      : t.transit = u.transit
  pending      : t.pending = u.pending

/-- The control-origin frames of a Return Merge: those queued and one in transmission. -/
def controlOrigin (m : ReturnMerge) : List ControlFrame :=
  (match m.sending with | some (.control f) => [f] | _ => []) ++ m.control

/-- `t` is what answering command `c` with a status and a body leaves of `u`: while the trunk link of the command's lane is
UP the response stands in that lane's control output queue or in transmission (R157, R161). With an empty intake, so that no
further command begins in the event, the agent is IDLE, has counted one command executed and nothing else, the reserved place is
given up, and a response that finds the link DOWN is one control discard (R157, R164). The rest is as the end of an event
leaves it. -/
structure Answered (u : State) (c : Command) (st : Status) (body : Bytes) (t : State) : Prop where
  settled   : Settled u t
  response  : (u.mergeOf c.lane).linkUp = true →
    (⟨responseFrame u c st body, false⟩ : ControlFrame) ∈ controlOrigin (t.mergeOf c.lane)
  idle      : u.agent.intake = [] → t.agent.progress = none ∧ (t.mergeOf c.lane).reserved = false
  executed  : u.agent.intake = [] → t.agent.counters = u.agent.counters.bump AgentCounter.executed.ix 1
  discarded : u.agent.intake = [] → ∀ l, (t.mergeOf l).counters =
    if l = c.lane ∧ (u.mergeOf l).linkUp = false then
      (u.mergeOf l).counters.bump MergeCounter.controlDiscards.ix 1
    else (u.mergeOf l).counters

/-! ## Rises -/

/-- The context flags whose rise the Notice Unit acts on, in the order of R38: clear in `before` and set in the record that the
event leaves, with the flag's enable and the master enable set (R187). -/
def enabledRises (c : CtxIx) (before : BitVec 8) (u : State) : List CtxFlag :=
  CtxFlag.all.filter (fun f => !hasFlag before f.bit && hasFlag (u.ctx c).flags f.bit &&
    (u.notice.master && hasFlag (u.ctx c).enables f.bit))

/-- The DIRECT record of a rise, read from the context record as the event leaves it (R188). -/
def directRecord (c : CtxIx) (u : State) (f : CtxFlag) : NoticeRecord :=
  let r := u.ctx c
  ⟨.context c f, r.generation, .direct, r.state, r.phase, r.nextPn, r.blocks, r.age, u.ks.freeSlots⟩

/-- `u` once the Notice Unit has acted on the rises `fs` of context `c` (R187): the first of them, as many as the Notice Queue
has room for, give DIRECT records at its tail, and each of the rest sets its owed mark. -/
def takeRises (c : CtxIx) (fs : List CtxFlag) (u : State) : State :=
  let room := 64 - u.notice.queue.length
  (u.setCtx c { u.ctx c with owed := (fs.drop room).foldl (fun o f => setFlag o f.bit) (u.ctx c).owed }).setNotice
    { u.notice with queue := u.notice.queue ++ (fs.take room).map (directRecord c u) }

/-- `t` is what an event at context `c` leaves that has changed what `u` shows and nothing else, its rises handled. A rise
without its enable or without the master enable gives no record and no mark (R187). Where records wait already no departure
becomes possible; a record that joins an empty Notice Queue leaves at once if it may (R190). -/
def RisesHandled (c : CtxIx) (before : BitVec 8) (u t : State) : Prop :=
  let v := takeRises c (enabledRises c before u) u
  (u.notice.queue ≠ [] → t = v) ∧ (u.notice.queue = [] → exec .noticeDeparture v = .next t)

/-- What an event at context `c` that leaves `t` has done to `s` itself, before its rises: `t` without the records, the owed
marks and the departure that the rises bring about. -/
def ownEffect (c : CtxIx) (s t : State) : State :=
  { t with notice := s.notice, merge := s.merge, ctxs := put s.ctxs c { t.ctx c with owed := (s.ctx c).owed } }

/-- A station command taken at context `c` handles its rises as `RisesHandled` says, whatever it answers, where its end can
bring about no departure and no begin: intake is empty, and records wait already or the route is unset. -/
def RisesQueued (c : CtxIx) (s t : State) : Prop :=
  let u := ownEffect c s t
  let v := takeRises c (enabledRises c (s.ctx c).flags u) u
  s.agent.intake = [] → (s.notice.queue ≠ [] ∨ s.notice.route = none) → t.notice = v.notice ∧ t.ctxs = v.ctxs

/-- `t` is what an event leaves that has changed what `u` shows and then raises device flag `f`, its rise handled (R186 to R188). A
flag that is set does not rise again; a rise without its enable or without the master enable sets the flag alone; otherwise it
gives a DIRECT record, or the owed mark where 64 records wait. A record that joins an empty Notice Queue leaves at once if it may
(R190). -/
def DeviceRiseHandled (f : DevFlag) (u t : State) : Prop :=
  let n := { u.notice with flags := setFlag u.notice.flags f.bit }
  let d : NoticeRecord := ⟨.device f, 0#16, .direct, .undefined, 0#2, 0, 0, 0, u.ks.freeSlots⟩
  if hasFlag u.notice.flags f.bit then t = u
  else if u.notice.master && hasFlag u.notice.enables f.bit then
    if 64 ≤ u.notice.queue.length then t = u.setNotice { n with owed := setFlag u.notice.owed f.bit }
    else if u.notice.queue = [] then exec .noticeDeparture (u.setNotice { n with queue := [d] }) = .next t
    else t = u.setNotice { n with queue := u.notice.queue ++ [d] }
  else t = u.setNotice n

/-! ## The slots of a tenure -/

/-- The event that takes `s` to `t` ends the tenure of context `c`, and begins one under slot `into` if it names one (R29, R69,
R89): the CURRENT slot that the context held goes to DRAINING, or to SCRUBBING with no frame in flight; the READY slot named
becomes CURRENT; and every other slot stays. `startScrub` zeroes the slot at once, which is the model's choice (assumption 31). -/
structure TenureEnded (c : CtxIx) (into : Option SlotIx) (s t : State) : Prop where
  released : ∀ k, (s.ctx c).current = some k → into ≠ some k → (s.slot k).owner = some (c, (s.ctx c).generation) →
    (s.slot k).state = .current →
    t.slot k = if (s.slot k).inFlight = 0 then startScrub (s.slot k) else { s.slot k with state := .draining }
  entered : ∀ k, into = some k → (s.ctx c).current ≠ some k → (s.slot k).owner = some (c, (s.ctx c).generation) →
    (s.slot k).state = .ready → t.slot k = { s.slot k with state := .current }
  others : ∀ k, (s.ctx c).current ≠ some k → into ≠ some k → t.slot k = s.slot k

end Sys2Proof.Machine
end

