-- ==== Sys2Proof/Certificates/Slice0/Obligations.lean ====
section
/-! DEFINITION. The statements for the provers. Each is a closed proposition about the model; its docstring names the rule of
spec/ it rests on. `Settled u t` says that `t` is `u` but for what the end of an event may change (Sys2Proof/Safety.lean);
`Answered u c st body t` adds the response. `startScrub` zeroes a slot in the event that moves it to SCRUBBING; that moment is
the model's choice (assumption 31), here and in `TenureEnded`. -/

open Sys2Proof Sys2Proof.Machine

/-! ## The step, reset and invariants -/

/-- 00_scope, section 4: an event is taken whole. Step takes the command at the front of the queue, and runs it on the state
with the queue's rest. -/
def Obligations.StepTakesTheFrontCommand : Prop :=
  ∀ (c : Instr) (rest : List Instr) (s : State), s.pending = c :: rest → step s = exec c { s with pending := rest }

/-- The state after reset meets every invariant stated here (R8, R40, R85, R133, R144, R148, R160, R185). -/
def Obligations.ResetMeetsTheInvariants : Prop :=
  CountersBounded State.reset ∧ WithinCapacity State.reset ∧ SlotsSound State.reset ∧
    (∀ c, CtxSound (State.reset.ctx c)) ∧ OwedMarksWait State.reset

/-- R36: no 48-bit counter, key block count or key age ever passes its largest value. -/
def Obligations.CountersStayBounded : Prop :=
  ∀ s t : State, CountersBounded s → step s = .next t → CountersBounded t

/-- R4, R76, R106, R121, R122, R138, R148, R153, R160, R161, R185: no step overfills a buffer or a queue, and a place stays
reserved exactly while its command is in progress. -/
def Obligations.CapacitiesHold : Prop :=
  ∀ s t : State, WithinCapacity s → step s = .next t → WithinCapacity t

/-- R67, R70: no step leaves key material in a FREE or SCRUBBING slot, and the kept number of FREE slots stays exact. That a
SCRUBBING slot is zero from the start of its scrub, and not only within 1 µs of it, is the model's choice (assumption 31). -/
def Obligations.SlotsStaySound : Prop := ∀ s t : State, SlotsSound s → step s = .next t → SlotsSound t

/-- R23, R26, R44, R50: no step leaves a context record with values that its state does not allow; in particular next PN never
passes 4,294,967,295. -/
def Obligations.ContextsStaySound : Prop :=
  ∀ s t : State, (∀ c, CtxSound (s.ctx c)) → step s = .next t → ∀ c, CtxSound (t.ctx c)

/-- R189: while an owed mark of any kind is set, the Notice Queue is full, and every step keeps it so. -/
def Obligations.OwedMarksStayWaiting : Prop := ∀ s t : State, OwedMarksWait s → step s = .next t → OwedMarksWait t

/-- The frame of every command (R33, R57, R68, R79, R97, R110, R116, R122, R141, R155): a part of the state that `reach`
(Sys2Proof/Safety.lean) does not list for the command holds the same afterwards. An event at a context leaves every other record
as it was but for its owed marks, and of the slots it reaches those that the record names. -/
def Obligations.EveryCommandReachesOnlyItsParts : Prop :=
  ∀ (i : Instr) (s t : State) (p : Part), exec i s = .next t → p ∉ reach i s → p.same s t

/-- R33: the generation of a context changes only at CONTEXT_CLEAR, at a zeroize of the Context Table, at the third step of a
Datapath Restart and at device reset; each of the first three advances it by 1. -/
def Obligations.GenerationChangesAtFourEvents : Prop :=
  ∀ (i : Instr) (s t : State) (c : CtxIx), exec i s = .next t → (t.ctx c).generation ≠ (s.ctx c).generation →
    (∃ p m z, i = .deviceReset p m z) ∨
      ((i = .contextClear ∨ i = .contextZeroize ∨ i = .restartContexts) ∧
        (t.ctx c).generation = (s.ctx c).generation + 1#16)

/-- R44: within one tenure the next PN never falls, and one event issues at most one packet number. A tenure is told by the
current slot; the premise on the next slot says that one slot is not both current and next (R65). -/
def Obligations.NextPnRisesWithinATenure : Prop :=
  ∀ (i : Instr) (s t : State) (c : CtxIx), exec i s = .next t → (s.ctx c).state = .active → (t.ctx c).state = .active →
    (t.ctx c).current = (s.ctx c).current → (s.ctx c).next.map Prod.fst ≠ (s.ctx c).current →
      (t.ctx c).phase = (s.ctx c).phase ∧ (t.ctx c).generation = (s.ctx c).generation ∧
        ((t.ctx c).nextPn = (s.ctx c).nextPn ∨ (t.ctx c).nextPn = (s.ctx c).nextPn + 1)

/-! ## Device reset and zeroize -/

/-- R84, R85: the Key Store after device reset. With ZEROIZE_N asserted at its end the note is set, every slot stays FREE and
2,304 are counted: that nothing else of R83 is done then is assumption 8. That a report of a discarded job in transit is lost is
assumption 12. -/
def Obligations.DeviceResetRestoresTheKeyStore : Prop :=
  ∀ (provLane : Lane) (mkOnce zeroizeAsserted : Bool) (s : State), ∃ t,
    exec (.deviceReset provLane mkOnce zeroizeAsserted) s = .next t ∧
      (∀ k, (t.slot k).state = .free ∧ (t.slot k).owner = none ∧ (t.slot k).salt = 0#32 ∧ (t.slot k).kek = 0 ∧
        (t.slot k).inFlight = 0 ∧ (t.slot k).key = 0#256) ∧
      t.ks.freeSlots = 2304 ∧ (∀ i, look t.ks.keks i = none) ∧ t.ks.mgmtKey = none ∧ t.mkOnce = mkOnce ∧
      t.ks.jobs = [] ∧ t.ks.running = none ∧ t.transit.results = [] ∧ t.transit.discardReports = [] ∧
      t.ks.lastFailure = none ∧ t.ks.successes = 0 ∧ t.ks.failures = 0 ∧ t.ks.setAside = 0 ∧
      t.ks.zeroizeHeld = zeroizeAsserted

/-- R40: the context records after device reset. -/
def Obligations.DeviceResetRestoresTheContexts : Prop :=
  ∀ (provLane : Lane) (mkOnce zeroizeAsserted : Bool) (s : State), ∃ t,
    exec (.deviceReset provLane mkOnce zeroizeAsserted) s = .next t ∧
      ∀ c, (t.ctx c).state = .undefined ∧ (t.ctx c).generation = 0#16 ∧ (t.ctx c).tag = 0#32 ∧ (t.ctx c).cls = 0 ∧
        (t.ctx c).options = ⟨false, false, false⟩ ∧ (t.ctx c).condition = 0 ∧ (t.ctx c).group = 0 ∧
        (t.ctx c).thresholds = ⟨4294967295, 4294967295, 4294967295, 65535, 65535⟩ ∧ (t.ctx c).initialPhase = 0#2 ∧
        (t.ctx c).current = none ∧ (t.ctx c).next = none ∧ (t.ctx c).phase = 0#2 ∧ (t.ctx c).nextPn = 0 ∧
        (t.ctx c).blocks = 0 ∧ (t.ctx c).age = 0 ∧ (t.ctx c).softReached = false ∧ (t.ctx c).switchPending = false ∧
        (t.ctx c).flags = 0#8 ∧ (t.ctx c).enables = 0#8 ∧ (t.ctx c).owed = 0#8 ∧
        (∀ i, look (t.ctx c).counters.vals i = 0) ∧ (t.ctx c).counters.sat = false

/-- R8, R19, R106, R133, R144, R148, R160, R185: the other blocks after device reset. With ZEROIZE_N asserted at its end the
flag ZEROIZED is up (R84). What ZEROIZE_N at the end of a reset does is assumption 8. -/
def Obligations.DeviceResetRestoresTheOtherBlocks : Prop :=
  ∀ (provLane : Lane) (mkOnce zeroizeAsserted : Bool) (s : State), ∃ t,
    exec (.deviceReset provLane mkOnce zeroizeAsserted) s = .next t ∧
      (∀ l, (t.rxOf l).buffer = [] ∧ (t.rxOf l).headAction = none ∧ (t.rxOf l).counters = CounterSet.zero 11) ∧
      (∀ e, (t.entry e).valid = false ∧ (t.entry e).lanes = 15#4 ∧ (t.entry e).tagMatch = .any ∧
        (t.entry e).priority = none ∧ (t.entry e).address = 0#48 ∧ (t.entry e).prefixLen = 0 ∧
        (t.entry e).typeMatch = false ∧ (t.entry e).action = .drop ∧ (t.entry e).hits = CounterSet.zero 1) ∧
      t.selector.default = .drop ∧
      (∀ l, (t.cipherOf l).recs = [] ∧ (t.cipherOf l).request = none ∧ (t.cipherOf l).flushDrops = CounterSet.zero 1) ∧
      (∀ l, totalOccupancy (t.campusOf l) = 0 ∧ (t.campusOf l).sending = none ∧ (t.campusOf l).linkUp = false ∧
        (t.campusOf l).frameLimit = 9600 ∧ (∀ c, look (t.campusOf l).limits c = 262144) ∧
        (∀ c, look (t.campusOf l).queues c = []) ∧ (t.campusOf l).counters = CounterSet.zero 8) ∧
      (t.age.enable = true ∧ t.age.prescale = 1000 ∧ t.age.count = 1000 ∧ t.age.prescaleDiv = 0 ∧ t.age.countDiv = 0 ∧
        t.age.owed = 0 ∧ t.age.pass = none ∧ t.age.sweepStart.val = 0 ∧ t.age.sweepStop.val = 1023 ∧ t.age.lostTicks = 0) ∧
      (t.agent.intake = [] ∧ t.agent.progress = none ∧ t.agent.address = 0x0A0000000001#48 ∧
        t.agent.envelopeType = 0x9D4E#16 ∧ t.agent.counters = CounterSet.zero 7) ∧
      (t.notice.flags = (if zeroizeAsserted then 1#6 else 0#6) ∧ t.notice.enables = 0#6 ∧ t.notice.owed = 0#6 ∧
        t.notice.master = false ∧ t.notice.queue = [] ∧ t.notice.route = none ∧ t.notice.sequence = 0#16) ∧
      (∀ l, (t.mergeOf l).relay = [] ∧ (t.mergeOf l).control = [] ∧ (t.mergeOf l).reserved = false ∧
        (t.mergeOf l).sending = none ∧ (t.mergeOf l).linkUp = false ∧ (t.mergeOf l).counters = CounterSet.zero 6) ∧
      t.provLane = provLane

/-- R83: an assertion of ZEROIZE_N at the Key Store scrubs every slot, empties every key holder, discards every job with no
result, reports a discarded KEK or MK job to the agent, and raises POOL_LOW and ZEROIZED. That the slots are zero in this very
event, and not only within 1 µs of it, is the model's choice (assumption 31). -/
def Obligations.ZeroizeDestroysEveryKey : Prop :=
  ∀ s : State, ∃ t, exec .keyStoreZeroize s = .next t ∧
    (∀ k, (t.slot k).state = .scrubbing ∧ (t.slot k).key = 0#256 ∧ (t.slot k).salt = 0#32 ∧ (t.slot k).kek = 0 ∧
      (t.slot k).inFlight = 0 ∧ (t.slot k).owner = (s.slot k).owner) ∧
    t.ks.freeSlots = 0 ∧ (∀ i, look t.ks.keks i = none) ∧ t.ks.mgmtKey = none ∧ t.ks.jobs = [] ∧ t.ks.running = none ∧
    t.ks.zeroizeHeld = true ∧ t.ks.lastFailure = s.ks.lastFailure ∧ t.ks.successes = s.ks.successes ∧
    t.ks.failures = s.ks.failures ∧ t.ks.setAside = s.ks.setAside ∧
    t.transit = { s.transit with
      discardReports := s.transit.discardReports ++ ((discardedJobs s.ks).map Job.command).flatten } ∧
    hasFlag t.notice.flags DevFlag.poolLow.bit = true ∧ hasFlag t.notice.flags DevFlag.zeroized.bit = true ∧
    ((∀ c step free, s.agent.progress = some c → c.stage ≠ .restart step free) → t.agent = s.agent) ∧
    Settled { s with ks := t.ks, transit := t.transit } t

/-- R23, R42, R70, R84, R105, R146, R159: a zeroize at the Context Table, the Age Timer and the Control Agent, and the release
of the input. The Context Table makes every context it reaches UNDEFINED and releases the slots that its record names: a READY
slot goes to SCRUBBING, a CURRENT one to DRAINING or SCRUBBING, and any other stays. The Age Timer gives up its pass and its
owed ticks; the visit that a RUNNING pass has sent stays to be taken (assumption 29). The agent abandons a command that waits on
a job and begins nothing, since its intake is empty; the Key Store's report that a command's job was discarded makes it abandon
that command likewise, without a response, and finds none otherwise. A slot is zero from the start of its scrub, which is the
model's choice (assumption 31). -/
def Obligations.ZeroizeReachesTheOtherBlocks : Prop :=
  (∀ s : State, ∃ t, exec .contextZeroize s = .next t ∧
    t = { s with ctxs := t.ctxs, ks := { s.ks with slots := t.ks.slots } } ∧
    (∀ c, ((s.ctx c).state = .undefined → t.ctx c = s.ctx c) ∧
      ((s.ctx c).state ≠ .undefined →
        t.ctx c = { s.ctx c with
          state := .undefined, generation := (s.ctx c).generation + 1#16, current := none, next := none, phase := 0#2,
          nextPn := 0, blocks := 0, age := 0, softReached := false, switchPending := false })) ∧
    (∀ k, (s.slot k).owner = none → t.slot k = s.slot k) ∧
    (∀ k c g, (s.slot k).owner = some (c, g) →
      let named := (s.ctx c).state ≠ .undefined ∧ (s.ctx c).generation = g ∧
        ((s.ctx c).current = some k ∨ (s.ctx c).next.map Prod.fst = some k)
      (named → (s.slot k).state = .current →
        t.slot k = if (s.slot k).inFlight = 0 then startScrub (s.slot k) else { s.slot k with state := .draining }) ∧
      (named → (s.slot k).state = .ready → t.slot k = startScrub (s.slot k)) ∧
      (¬named ∨ ((s.slot k).state ≠ .current ∧ (s.slot k).state ≠ .ready) → t.slot k = s.slot k))) ∧
  (∀ s : State, s.age.pass = none → exec .ageTimerZeroize s = .next (s.setAge { s.age with owed := 0 })) ∧
  (∀ (s : State) (p : Pass), s.age.pass = some p → exec .ageTimerZeroize s =
    .next ((s.setAge { s.age with pass := none, owed := 0 }).setTransit
      { s.transit with visits := s.transit.visits ++ [(p.position, p.increment)] })) ∧
  (∀ s : State, exec .zeroizeRelease s = .next (s.setKs { s.ks with zeroizeHeld := false })) ∧
  (∀ s : State, ∃ t, exec .agentZeroize s = .next t ∧ Settled s t ∧ t.agent.intake = [] ∧
    t.agent.counters = s.agent.counters.bump AgentCounter.zeroizeDiscards.ix s.agent.intake.length ∧
    ((∃ c, s.agent.progress = some c ∧ c.stage = .waitJob ∧ t.agent.progress = none ∧
        (t.mergeOf c.lane).reserved = false) ∨
      ((∀ c, s.agent.progress = some c → c.stage ≠ .waitJob) ∧ t.agent.progress = s.agent.progress ∧ t.merge = s.merge))) ∧
  (∀ (n m : Nat) (s : State), s.transit.discardReports[n]? = some m → ∃ t, exec (.jobDiscardReport n) s = .next t ∧
    Settled (s.setTransit { s.transit with discardReports := s.transit.discardReports.eraseIdx n }) t ∧
    (∀ c, s.agent.progress = some c → c.serial = m → c.stage = .waitJob → s.agent.intake = [] →
      t.agent.progress = none ∧ (t.mergeOf c.lane).reserved = false ∧ t.agent.counters = s.agent.counters) ∧
    (waitingCommand m s = none → t.agent = s.agent ∧ t.merge = s.merge ∧ t.notice = s.notice ∧ t.ctxs = s.ctxs))

/-! ## Trunk Receive and the Selector -/

/-- R1, R3, R4, R7: a frame on a trunk port that is not a control frame. Its length is checked, then its FCS; an accepted data
frame joins the receive buffer when it fits, and is a receive overrun otherwise. That the port's verdict on the FCS is an
operand is the model's (assumption 9). -/
def Obligations.DataFrameReception : Prop :=
  ∀ (l : Lane) (rx : RxFrame) (s : State), ∃ t, exec (.trunkFrameTaken l rx) s = .next t ∧
    let n := rx.octets.length
    let f := rx.octets.take (n - 4)
    let r := s.rxOf l
    let acc := (r.count .acceptedFrames 1).count .acceptedBytes f.length
    (n < 64 ∨ 9216 < n → Settled (s.setRx l (r.count .lengthErrors 1)) t) ∧
    (64 ≤ n → n ≤ 9216 → rx.ending ≠ .good → Settled (s.setRx l (r.count .fcsErrors 1)) t) ∧
    (64 ≤ n → n ≤ 9216 → rx.ending = .good →
      ¬(destOf f = s.agent.address ∧ (etherTypeOf f).toNat = 0x9D4F) →
        (octetCount r.buffer + f.length ≤ 262144 → Settled (s.setRx l { acc with buffer := r.buffer ++ [f] }) t) ∧
        (262144 < octetCount r.buffer + f.length → Settled (s.setRx l (acc.count .receiveOverruns 1)) t))

/-- R3, R149 to R153, R186 to R188: a control frame is diverted whatever the receive buffer holds. The agent checks its form,
its lane in the provisioning state or its integrity tag otherwise, and takes it into intake when intake has a place. A BUSY
agent, and an IDLE one whose head of intake finds no room for its response, leaves the frame waiting. An IDLE agent with an
empty intake that takes it begins it in the same event when the lane's control output queue has room: the frame leaves intake
and becomes the command in progress with a place reserved, or is refused at once by checks 1 to 4 of R154 (assumption 14) and
counted executed. A rise of AUTH_FAIL or CONTROL_DROP while the frames wait is handled at the Notice Unit. The row of a start
that another event brings about stands for that start (assumption 3). -/
def Obligations.ControlFrameIntake : Prop :=
  ∀ (l : Lane) (rx : RxFrame) (s : State),
    let f := rx.octets.take (rx.octets.length - 4)
    64 ≤ rx.octets.length → rx.octets.length ≤ 9216 → rx.ending = .good → destOf f = s.agent.address →
    (etherTypeOf f).toNat = 0x9D4F →
    let u := s.setRx l ((((s.rxOf l).count .acceptedFrames 1).count .acceptedBytes f.length).count .controlFrames 1)
    let waits := s.agent.progress.isSome = true ∨ ∃ g rest, s.agent.intake = g :: rest ∧
      (g.auth = true ∨ s.ks.mgmtKey = none) ∧ 16 ≤ placesUsed (s.mergeOf g.lane)
    ∃ t, exec (.trunkFrameTaken l rx) s = .next t ∧ Settled u t ∧
      (waits ∨ s.agent.intake = [] →
        (ctlFormOk f = false → t.agent = s.agent.count .malformed 1) ∧
        (ctlFormOk f = true → s.ks.mgmtKey = none → l ≠ s.provLane → t.agent = s.agent.count .wrongLane 1) ∧
        (∀ k, ctlFormOk f = true → s.ks.mgmtKey = some k → cmac k (ctlCovered f) ≠ ctlIntegrity f →
          t.agent = s.agent.count .authFailures 1 ∧ hasFlag t.notice.flags DevFlag.authFail.bit = true ∧
          DeviceRiseHandled .authFail (u.setAgent (s.agent.count .authFailures 1)) t)) ∧
      (ctlFormOk f = true →
        (s.ks.mgmtKey = none ∧ l = s.provLane ∨ ∃ k, s.ks.mgmtKey = some k ∧ cmac k (ctlCovered f) = ctlIntegrity f) →
          (waits → s.agent.intake.length < 8 →
            t.agent = ({ s.agent with intake := s.agent.intake ++ [⟨l, f, s.ks.mgmtKey.isSome⟩] } : Agent).count .taken 1) ∧
          (waits → 8 ≤ s.agent.intake.length →
            t.agent = s.agent.count .overflows 1 ∧ hasFlag t.notice.flags DevFlag.controlDrop.bit = true ∧
            DeviceRiseHandled .controlDrop (u.setAgent (s.agent.count .overflows 1)) t) ∧
          (s.agent.progress = none → s.agent.intake = [] →
            let a := ({ s.agent with intake := [⟨l, f, s.ks.mgmtKey.isSome⟩] } : Agent).count .taken 1
            exec .commandBegin (u.setAgent a) = .next t ∧
            (16 ≤ placesUsed (s.mergeOf l) → t.agent = a) ∧
            (placesUsed (s.mergeOf l) < 16 → t.agent.intake = [] ∧
              (∀ d, t.agent.progress = some d → d.lane = l ∧ d.frame = f ∧ (t.mergeOf l).reserved = true ∧
                t.agent.counters = a.counters) ∧
              (t.agent.progress = none → t.agent.counters = a.counters.bump AgentCounter.executed.ix 1) ∧
              (ctlCode f = 0x01 → ctlBodyLen f = 0 → ∃ d, begunCommand 0x01 t = some d))))

/-- R10 to R12: an entry matches a frame when its six conditions hold: it is valid, the lane is in its set, its tag match, its
priority, the first bits of its address and its EtherType agree. The first entry that matches the head frame decides it. Its hit
counter increases, no other entry changes, and the frame is discarded by DROP or keeps its action and is offered to the Cipher
Lane. The row of a start that another event brings about stands for that start (assumption 3). -/
def Obligations.FirstMatchingEntryDecides : Prop :=
  (∀ (e : SelEntry) (l : Lane) (f : Bytes), entryMatches e l f = true ↔
    e.valid = true ∧ e.lanes.getLsbD l.val = true ∧
    (e.tagMatch = .any ∨ (e.tagMatch = .untagged ∧ field f 12 2 ≠ 0x8100) ∨
      ∃ v, e.tagMatch = .vlan v ∧ field f 12 2 = 0x8100 ∧ field f 14 2 % 4096 = v.toNat) ∧
    (e.priority = none ∨ ∃ p, e.priority = some p ∧ field f 12 2 = 0x8100 ∧ field f 14 2 / 8192 = p.toNat) ∧
    field f 0 6 / 2 ^ (48 - e.prefixLen) = e.address.toNat / 2 ^ (48 - e.prefixLen) ∧
    (e.typeMatch = false ∨ field f (if field f 12 2 = 0x8100 then 16 else 12) 2 = e.etherType.toNat)) ∧
  ∀ (l : Lane) (s : State) (f : Bytes) (rest : List Bytes) (e : SelIx), (s.rxOf l).headAction = none →
    (s.rxOf l).buffer = f :: rest → entryMatches (s.entry e) l f = true →
    (∀ j, j.val < e.val → entryMatches (s.entry j) l f = false) →
    let s₁ := s.setEntry e { s.entry e with hits := (s.entry e).hits.bump 0 1 }
    match (s.entry e).action with
    | .drop => exec (.selectorLookup l) s =
        .next (s₁.setRx l (({ s.rxOf l with buffer := rest } : TrunkRx).count .selectorDrops 1))
    | .pass cls => exec (.selectorLookup l) s =
        exec (.laneFrameTake l) (s₁.setRx l { s.rxOf l with headAction := some (.pass cls (some e)) })
    | .protect c => exec (.selectorLookup l) s =
        exec (.laneFrameTake l) (s₁.setRx l { s.rxOf l with headAction := some (.protect c e) })

/-- R6, R12, R17, R107, R178: DEFAULT_ACTION_SET replaces the default action, and refuses a kind above 1, a class above 3 with
PASS and a class other than 0 with DROP. A lookup that finds no match returns the default action as it stands when the lookup is
taken: the head frame is discarded by DROP, and by PASS it keeps the action while the Cipher Lane cannot take it; when the lane
can, it becomes a PASS record of that class in the same event, or is reported as pass-oversize. That the lane's take is made in
the event of the lookup is assumption 3. -/
def Obligations.DefaultActionIsReplacedAndUsed : Prop :=
  (∀ (s : State) (c : Command), begunCommand 0x23 s = some c →
    let kind := field (cmdBody c) 0 1
    let cls := field (cmdBody c) 1 1
    (1 < kind ∨ (kind = 0 ∧ cls ≠ 0) ∨ (kind = 1 ∧ 3 < cls) →
      ∃ t, exec .defaultActionSet s = .next t ∧ Answered s c .badValue [] t) ∧
    (∀ a : DefaultAction,
      (field (cmdBody c) 0 1 = 0 ∧ field (cmdBody c) 1 1 = 0 ∧ a = .drop ∨
        ∃ k : Cls, field (cmdBody c) 0 1 = 1 ∧ field (cmdBody c) 1 1 = k.val ∧ a = .pass k) →
      ∃ t, exec .defaultActionSet s = .next t ∧
        Answered (s.setSelector { s.selector with default := a }) c .ok
          (octetsOf 1 (field (cmdBody c) 0 1) ++ octetsOf 1 (field (cmdBody c) 1 1)) t)) ∧
  (∀ (l : Lane) (s : State) (f : Bytes) (rest : List Bytes), (s.rxOf l).headAction = none → (s.rxOf l).buffer = f :: rest →
    (∀ j, entryMatches (s.entry j) l f = false) →
    match s.selector.default with
    | .drop => exec (.selectorLookup l) s =
        .next (s.setRx l (({ s.rxOf l with buffer := rest } : TrunkRx).count .defaultDrops 1))
    | .pass cls =>
      (32 ≤ (s.cipherOf l).recs.length ∨ (s.cipherOf l).request ≠ none → exec (.selectorLookup l) s =
        .next (s.setRx l { (s.rxOf l).count .defaultPasses 1 with headAction := some (.pass cls none) })) ∧
      ((s.cipherOf l).recs.length < 32 → (s.cipherOf l).request = none → f.length + 4 ≤ (s.campusOf l).frameLimit →
        exec (.selectorLookup l) s = .next ((s.setRx l { (s.rxOf l).count .defaultPasses 1 with buffer := rest }).setCipher l
          { s.cipherOf l with recs := (s.cipherOf l).recs ++ [.pass f cls] })) ∧
      ((s.cipherOf l).recs.length < 32 → (s.cipherOf l).request = none → (s.campusOf l).frameLimit < f.length + 4 →
        exec (.selectorLookup l) s = .next ((s.setRx l { (s.rxOf l).count .defaultPasses 1 with buffer := rest }).setTransit
          { s.transit with laneReports := s.transit.laneReports ++ [(l, .passOversize)] })))

/-- R6, R54, R107, R108: a lane with fewer than 32 records and no request outstanding takes the head frame with its action. A
PASS frame takes a record or is oversize; a PROTECT frame takes a RESERVED record and its request carries the campus frame limit
just read. -/
def Obligations.LaneTakesTheHeadFrame : Prop :=
  ∀ (l : Lane) (s : State) (f : Bytes) (rest : List Bytes), (s.rxOf l).buffer = f :: rest →
    (s.cipherOf l).recs.length < 32 → (s.cipherOf l).request = none →
    let s₁ := s.setRx l { s.rxOf l with buffer := rest, headAction := none }
    (∀ cls e, (s.rxOf l).headAction = some (.pass cls e) →
      (f.length + 4 ≤ (s.campusOf l).frameLimit → exec (.laneFrameTake l) s =
        .next (s₁.setCipher l { s.cipherOf l with recs := (s.cipherOf l).recs ++ [.pass f cls] })) ∧
      ((s.campusOf l).frameLimit < f.length + 4 → exec (.laneFrameTake l) s =
        .next (s₁.setTransit { s.transit with laneReports := s.transit.laneReports ++ [(l, .passOversize)] }))) ∧
    (∀ c e, (s.rxOf l).headAction = some (.protect c e) → exec (.laneFrameTake l) s =
      .next (s₁.setCipher l { s.cipherOf l with
        recs := (s.cipherOf l).recs ++ [.reserved f e c],
        request := some ⟨c, f.length, isTagged f, vlanOf f, e, (s.campusOf l).frameLimit⟩ }))

/-- R7, R33, R36, R187, R188, R190: a report from the Cipher Lane to Trunk Receive increases its counter by 1. A drop report to
the Context Table counts on its context when it carries the present generation, and changes no record when it does not; a
queue-drop report also raises QUEUE_DROP. Every rise of either report is handled at the Notice Unit, SATURATED after QUEUE_DROP.
Written out for a rise of QUEUE_DROP alone: with its enable and the master enable set it puts a DIRECT record at the tail of a
Notice Queue with room, which leaves at once if it is the only one and may; it sets the owed mark instead where 64 records wait;
and with an enable clear it makes no record and no mark. A departure that becomes possible in the event is made in it
(assumption 3). -/
def Obligations.DropReportsAreCounted : Prop :=
  (∀ (n : Nat) (l : Lane) (d : LaneDrop) (s : State), s.transit.laneReports[n]? = some (l, d) →
    exec (.laneDropReport n) s =
      .next ((s.setTransit { s.transit with laneReports := s.transit.laneReports.eraseIdx n }).setRx l
        ((s.rxOf l).count (match d with | .passOversize => .passOversizeDrops | .noContext => .noContextDrops) 1))) ∧
  (∀ (n : Nat) (m : FlushReport) (s : State), s.transit.flushReports[n]? = some m →
    let s₁ := s.setTransit { s.transit with flushReports := s.transit.flushReports.eraseIdx n }
    ∃ t, exec (.flushDropReport n) s = .next t ∧
      ((s.ctx m.ctx).generation = m.gen → Settled (s₁.setCtx m.ctx ((s.ctx m.ctx).count .flushDrops 1)) t ∧
        RisesHandled m.ctx (s.ctx m.ctx).flags (s₁.setCtx m.ctx ((s.ctx m.ctx).count .flushDrops 1)) t) ∧
      ((s.ctx m.ctx).generation ≠ m.gen → t = s₁)) ∧
  (∀ (n : Nat) (c : CtxIx) (g : Gen) (s : State), s.transit.queueReports[n]? = some (c, g) →
    let s₁ := s.setTransit { s.transit with queueReports := s.transit.queueReports.eraseIdx n }
    let r := s.ctx c
    let r' := (r.count .queueDrops 1).raise .queueDrop
    let u := s₁.setCtx c r'
    let enabled := s.notice.master = true ∧ hasFlag r.enables CtxFlag.queueDrop.bit = true
    let m : NoticeRecord :=
      ⟨.context c .queueDrop, r.generation, .direct, r.state, r.phase, r.nextPn, r.blocks, r.age, s.ks.freeSlots⟩
    let v := u.setNotice { s.notice with queue := s.notice.queue ++ [m] }
    ∃ t, exec (.queueDropReport n) s = .next t ∧
      (r.generation = g → Settled u t ∧ RisesHandled c r.flags u t ∧
        (look r.counters.vals CtxCounter.queueDrops.ix < counterMax →
          (¬enabled ∨ hasFlag r.flags CtxFlag.queueDrop.bit = true → t = u) ∧
          (enabled → hasFlag r.flags CtxFlag.queueDrop.bit = false →
            (s.notice.queue ≠ [] → s.notice.queue.length < 64 → t = v) ∧
            (s.notice.queue = [] → exec .noticeDeparture v = .next t) ∧
            (64 ≤ s.notice.queue.length → t = u.setCtx c { r' with owed := r.owed ||| 0x02#8 })))) ∧
      (r.generation ≠ g → t = s₁))

/-! ## Admission at a context -/

/-- R55 (items 1 to 3), R109, R117, R187: an UNDEFINED context refuses without a change of its record, an oversize frame is
refused in every other state, and a KEYLESS or HALTED context refuses the rest; a rise of OVERSIZE or SATURATED is handled at
the Notice Unit. The lane gives up the record, RESERVED or FLUSHED, and may take its next frame. The row of a start that another
event brings about stands for that start (assumption 3). -/
def Obligations.AdmissionRefusals : Prop :=
  ∀ (l : Lane) (s : State) (q : AdmissionReq) (old : List Rec) (y : Rec), (s.cipherOf l).request = some q →
    (s.cipherOf l).recs = old ++ [y] → (y = .flushed ∨ ∃ f e c, y = .reserved f e c) →
    let r := s.ctx q.ctx
    let s₁ := s.setCipher l { s.cipherOf l with recs := old, request := none }
    let tooLong := q.limit < q.length + 28 + (if r.options.originLabel then 8 else 0) + 4
    (r.state = .undefined → ∃ v t,
      exec (.laneFrameTake l)
        (s₁.setTransit { s.transit with laneReports := s.transit.laneReports ++ [(l, .noContext)] }) = .next v ∧
      exec (.admissionRequest l) s = .next t ∧ Settled v t ∧ t.notice = s.notice) ∧
    (r.state ≠ .undefined → tooLong → ∃ v t,
      exec (.laneFrameTake l) (s₁.setCtx q.ctx ((r.count .oversizeDrops 1).raise .oversize)) = .next v ∧
      exec (.admissionRequest l) s = .next t ∧ Settled v t ∧ RisesHandled q.ctx r.flags (ownEffect q.ctx s t) t) ∧
    (r.state = .keyless ∨ r.state = .halted → ¬tooLong → ∃ v t,
      exec (.laneFrameTake l) (s₁.setCtx q.ctx (r.count .noKeyDrops 1)) = .next v ∧
      exec (.admissionRequest l) s = .next t ∧ Settled v t ∧ RisesHandled q.ctx r.flags (ownEffect q.ctx s t) t)

/-- R45 to R47, R57, R70, R109, R117, R187: an ACTIVE context that no limit and no soft condition stops admits the frame under
its current slot with its next PN, charges the blocks, counts the frame and its L_out, and counts the frame in flight at the
slot; a rise of SATURATED is handled at the Notice Unit. A RESERVED record of the lane is filled from the admission. A FLUSHED
one is removed, its in-flight reference is released, a flush-drop report with the answer's generation is sent, and the lane
counts a flush drop; that this report holds up no restart is assumption 23. The row of a start that another event brings about
stands for that start (assumption 3). A slot is zero from the start of its scrub, which is the model's choice (assumption 31).
-/
def Obligations.AdmissionIssuesTheNextPn : Prop :=
  ∀ (l : Lane) (s : State) (q : AdmissionReq) (old : List Rec) (y : Rec) (k : SlotIx), (s.cipherOf l).request = some q →
    (s.cipherOf l).recs = old ++ [y] →
    let r := s.ctx q.ctx
    let o := if r.options.originLabel then 8 else 0
    let t := if q.tagged && r.options.clearTag then 4 else 0
    let lOut := q.length + 28 + o
    let b := (q.length - 12 - t + 15) / 16 + (12 + t + 12 + o + 15) / 16
    r.state = .active → r.current = some k → lOut + 4 ≤ q.limit →
    (blocksInSet r.condition = true → r.blocks + b ≤ r.thresholds.blockHard * 65536) →
    (r.softReached = true ∨ r.nextPn < r.thresholds.pnSoft ∧
      (blocksInSet r.condition = true → min (r.blocks + b) counterMax < r.thresholds.blockSoft * 65536)) →
    r.nextPn < 4294967295 → slotAccepts (s.slot k) q.ctx r.generation = true →
    let r' : Ctx := (({ r with nextPn := r.nextPn + 1, blocks := min (r.blocks + b) counterMax } : Ctx).count
      .protectedFrames 1).count .protectedBytes lOut
    (∀ f e c, y = .reserved f e c →
      let p : ProtectRec := ⟨f, e, q.ctx, r.generation, k, r.nextPn, r.phase, r.tag, r.cls, r.options.originLabel,
        r.options.clearTag, lOut⟩
      ∃ v u, exec (.laneFrameTake l)
          (((s.setCtx q.ctx r').setSlot k { s.slot k with inFlight := (s.slot k).inFlight + 1 }).setCipher l
            { s.cipherOf l with recs := old ++ [.protect p], request := none }) = .next v ∧
        exec (.admissionRequest l) s = .next u ∧ Settled v u ∧ RisesHandled q.ctx r.flags (ownEffect q.ctx s u) u) ∧
    (y = .flushed → ∃ v u, exec (.laneFrameTake l)
        ((((s.setCtx q.ctx r').setSlot k
          (if (s.slot k).state = .draining ∧ (s.slot k).inFlight = 0 then startScrub (s.slot k) else s.slot k)).setCipher l
            { s.cipherOf l with recs := old, request := none, flushDrops := (s.cipherOf l).flushDrops.bump 0 1 }).setTransit
          { s.transit with flushReports := s.transit.flushReports ++ [⟨q.ctx, r.generation, false⟩] }) = .next v ∧
      exec (.admissionRequest l) s = .next u ∧ Settled v u ∧ RisesHandled q.ctx r.flags (ownEffect q.ctx s u) u)

/-- R52, R58, R68, R69, R70, R89, R94, R187, R188: an admission whose packet number meets the PN soft threshold, or, with blocks
in the set, whose charge carries the key block count to the block soft threshold, takes one soft crossing. Without a switch the
soft-reached mark is set, KEY_WANTED is up when no next slot is present, and AUTO_ROLL leaves the switch pending; under
AUTO_ROLL with a READY next slot the switch follows the frame, which keeps the old slot, PN and phase: the new slot becomes
CURRENT, and the old one, which then has this frame in flight, goes to DRAINING. Every rise is handled at the Notice Unit. A
slot is zero from the start of its scrub, which is the model's choice (assumption 31). -/
def Obligations.SoftCrossingAtAnAdmission : Prop :=
  ∀ (l : Lane) (s : State) (q : AdmissionReq) (old : List Rec) (f : Bytes) (e : SelIx) (c : CtxIx) (k : SlotIx),
    (s.cipherOf l).request = some q → (s.cipherOf l).recs = old ++ [.reserved f e c] → (s.rxOf l).headAction = none →
    let r := s.ctx q.ctx
    r.state = .active → r.current = some k → outLen q.length (originLen r.options.originLabel) + 4 ≤ q.limit →
    let b := min (r.blocks + reqBlocks r q) counterMax
    (blocksInSet r.condition = true → r.blocks + reqBlocks r q ≤ r.thresholds.blockHard * 65536) →
    r.softReached = false → r.nextPn < 4294967295 →
    (r.thresholds.pnSoft ≤ r.nextPn ∨ (blocksInSet r.condition = true ∧ r.thresholds.blockSoft * 65536 ≤ b)) →
    ∃ t, exec (.admissionRequest l) s = .next t ∧
      (∃ p, (t.cipherOf l).recs = old ++ [.protect p] ∧ p.slot = k ∧ p.pn = r.nextPn ∧ p.phase = r.phase ∧
        p.gen = r.generation ∧ p.ctx = q.ctx) ∧
      RisesHandled q.ctx r.flags (ownEffect q.ctx s t) t ∧
      ((s.slot k).owner = some (q.ctx, r.generation) → (s.slot k).state = .current →
        let s₁ := s.setSlot k { s.slot k with inFlight := (s.slot k).inFlight + 1 }
        (r.options.autoRoll = false ∨ nextReady r = false → t.ks = s₁.ks) ∧
        (∀ n, r.options.autoRoll = true → r.next = some (n, .ready) → TenureEnded q.ctx (some n) s₁ t)) ∧
      ((r.options.autoRoll = false ∨ nextReady r = false) →
        (t.ctx q.ctx).state = .active ∧ (t.ctx q.ctx).current = some k ∧ (t.ctx q.ctx).nextPn = r.nextPn + 1 ∧
        (t.ctx q.ctx).blocks = b ∧ (t.ctx q.ctx).age = r.age ∧
        (t.ctx q.ctx).softReached = true ∧ (t.ctx q.ctx).phase = r.phase ∧ (t.ctx q.ctx).next = r.next ∧
        (t.ctx q.ctx).switchPending = (r.options.autoRoll || r.switchPending) ∧
        (r.next = none → hasFlag (t.ctx q.ctx).flags CtxFlag.keyWanted.bit = true)) ∧
      (∀ n, r.options.autoRoll = true → r.next = some (n, .ready) →
        (t.ctx q.ctx).state = .active ∧ (t.ctx q.ctx).current = some n ∧ (t.ctx q.ctx).next = none ∧
        (t.ctx q.ctx).nextPn = 1 ∧ (t.ctx q.ctx).blocks = 0 ∧ (t.ctx q.ctx).age = 0 ∧
        (t.ctx q.ctx).phase = r.phase + 1#2 ∧ (t.ctx q.ctx).softReached = false ∧
        (t.ctx q.ctx).switchPending = false ∧ hasFlag (t.ctx q.ctx).flags CtxFlag.switched.bit = true)

/-- R29, R53, R56, R69, R70, R89, R95, R187, R188: a frame whose charge would pass the block hard limit takes a hard event
before it is admitted. With a READY next slot it is admitted under that slot with PN 1: that slot becomes CURRENT with this
frame in flight. Without one the context becomes HALTED, keeps the measures of the ended tenure, and the frame is a no-key drop.
Either way the old slot goes to DRAINING, or to SCRUBBING with no frame in flight, no other slot changes, and every rise is
handled at the Notice Unit. A slot is zero from the start of its scrub, which is the model's choice (assumption 31). -/
def Obligations.BlockHardLimitStopsTheKey : Prop :=
  ∀ (l : Lane) (s : State) (q : AdmissionReq) (old : List Rec) (f : Bytes) (e : SelIx) (c : CtxIx) (k : SlotIx),
    (s.cipherOf l).request = some q → (s.cipherOf l).recs = old ++ [.reserved f e c] → (s.rxOf l).headAction = none →
    let r := s.ctx q.ctx
    r.state = .active → r.current = some k → outLen q.length (originLen r.options.originLabel) + 4 ≤ q.limit →
    blocksInSet r.condition = true → r.thresholds.blockHard * 65536 < r.blocks + reqBlocks r q →
    ∃ t, exec (.admissionRequest l) s = .next t ∧ RisesHandled q.ctx r.flags (ownEffect q.ctx s t) t ∧
      (nextReady r = false → TenureEnded q.ctx none s t ∧
        (t.cipherOf l).recs = old ∧ (t.ctx q.ctx).state = .halted ∧ (t.ctx q.ctx).current = none ∧
        (t.ctx q.ctx).next = r.next ∧ (t.ctx q.ctx).nextPn = 0 ∧ (t.ctx q.ctx).blocks = r.blocks ∧
        (t.ctx q.ctx).age = r.age ∧ (t.ctx q.ctx).phase = r.phase ∧ (t.ctx q.ctx).softReached = r.softReached ∧
        (t.ctx q.ctx).switchPending = r.switchPending ∧
        (t.ctx q.ctx).counters = r.counters.bump CtxCounter.noKeyDrops.ix 1 ∧
        hasFlag (t.ctx q.ctx).flags CtxFlag.halted.bit = true ∧
        hasFlag (t.ctx q.ctx).flags CtxFlag.keyWanted.bit = true) ∧
      (∀ n, r.next = some (n, .ready) → 1 < r.thresholds.pnSoft →
        min (reqBlocks r q) counterMax < r.thresholds.blockSoft * 65536 →
        (∃ p, (t.cipherOf l).recs = old ++ [.protect p] ∧ p.slot = n ∧ p.pn = 1 ∧ p.phase = r.phase + 1#2) ∧
        (t.ctx q.ctx).state = .active ∧ (t.ctx q.ctx).current = some n ∧ (t.ctx q.ctx).nextPn = 2 ∧
        (t.ctx q.ctx).blocks = min (reqBlocks r q) counterMax ∧ (t.ctx q.ctx).phase = r.phase + 1#2 ∧
        (k ≠ n → (s.slot k).owner = some (q.ctx, r.generation) → (s.slot k).state = .current →
          t.slot k = if (s.slot k).inFlight = 0 then startScrub (s.slot k) else { s.slot k with state := .draining }) ∧
        (k ≠ n → (s.slot n).owner = some (q.ctx, r.generation) → (s.slot n).state = .ready →
          t.slot n = { s.slot n with state := .current, inFlight := (s.slot n).inFlight + 1 }) ∧
        (∀ j, j ≠ k → j ≠ n → t.slot j = s.slot j))

/-- R29, R59, R68, R69, R70, R89, R187, R188: the frame that takes packet number 4,294,967,295 is admitted under the old slot,
and the tenure ends in the same event, whatever the condition code: by a switch with a READY next slot, which becomes CURRENT,
and in HALTED otherwise. The old slot, which has this frame in flight, goes to DRAINING. Every rise is handled at the Notice
Unit. A slot is zero from the start of its scrub, which is the model's choice (assumption 31). -/
def Obligations.LastPacketNumberEndsTheTenure : Prop :=
  ∀ (l : Lane) (s : State) (q : AdmissionReq) (old : List Rec) (f : Bytes) (e : SelIx) (c : CtxIx) (k : SlotIx),
    (s.cipherOf l).request = some q → (s.cipherOf l).recs = old ++ [.reserved f e c] → (s.rxOf l).headAction = none →
    let r := s.ctx q.ctx
    r.state = .active → r.current = some k → outLen q.length (originLen r.options.originLabel) + 4 ≤ q.limit →
    blockHardMet r (reqBlocks r q) = false → r.nextPn = 4294967295 →
    ∃ t, exec (.admissionRequest l) s = .next t ∧
      (∃ p, (t.cipherOf l).recs = old ++ [.protect p] ∧ p.slot = k ∧ p.pn = 4294967295 ∧ p.phase = r.phase) ∧
      RisesHandled q.ctx r.flags (ownEffect q.ctx s t) t ∧
      ((s.slot k).owner = some (q.ctx, r.generation) → (s.slot k).state = .current →
        let s₁ := s.setSlot k { s.slot k with inFlight := (s.slot k).inFlight + 1 }
        (nextReady r = false → TenureEnded q.ctx none s₁ t) ∧
        (∀ n, r.next = some (n, .ready) → TenureEnded q.ctx (some n) s₁ t)) ∧
      (nextReady r = false → (t.ctx q.ctx).state = .halted ∧ (t.ctx q.ctx).current = none ∧ (t.ctx q.ctx).nextPn = 0 ∧
        hasFlag (t.ctx q.ctx).flags CtxFlag.halted.bit = true ∧ hasFlag (t.ctx q.ctx).flags CtxFlag.keyWanted.bit = true) ∧
      (∀ n, r.next = some (n, .ready) → (t.ctx q.ctx).state = .active ∧ (t.ctx q.ctx).current = some n ∧
        (t.ctx q.ctx).nextPn = 1 ∧ (t.ctx q.ctx).phase = r.phase + 1#2 ∧
        hasFlag (t.ctx q.ctx).flags CtxFlag.switched.bit = true)

/-! ## Cipher Lanes -/

/-- R110: the PASS record at the head leaves the lane, and its frame is handed over unchanged with its class and an L_out of its
length. No slot and no context record is touched. The lane may then take its next frame (R107). The row of a start that another
event brings about stands for that start (assumption 3). -/
def Obligations.PassRecordCompletes : Prop :=
  ∀ (l : Lane) (s : State) (f : Bytes) (cls : Cls) (rest : List Rec), (s.cipherOf l).recs = .pass f cls :: rest →
    ∃ t, exec (.passRecordCompletion l) s = .next t ∧
      exec (.laneFrameTake l) (handOver l cls ⟨f, f.length⟩ none (s.setCipher l { s.cipherOf l with recs := rest })) =
        .next t ∧
      (t.campusOf l = (handOver l cls ⟨f, f.length⟩ none s).campusOf l) ∧ t.ks = s.ks ∧ t.ctxs = s.ctxs

/-- R68, R70, R111, R114: a PROTECT record whose slot is CURRENT or DRAINING and still owned as the record says is built into
its envelope, handed over and released at its slot. Otherwise the record is removed and its frame discarded as a flush discards
it: a flush-drop report and a flush drop, an in-flight release that a slot owned otherwise, FREE or SCRUBBING does not take, and
no frame leaves. The row of a start that another event brings about stands for that start (assumption 3). A slot is zero from
the start of its scrub, which is the model's choice (assumption 31). -/
def Obligations.ProtectRecordCompletes : Prop :=
  ∀ (l : Lane) (s : State) (p : ProtectRec) (rest : List Rec), (s.cipherOf l).recs = .protect p :: rest →
    let k := s.slot p.slot
    let s₁ := s.setCipher l { s.cipherOf l with recs := rest }
    let usable := (k.state = .current ∨ k.state = .draining) ∧ k.owner = some (p.ctx, p.gen)
    (usable → ∃ v, exec (.laneFrameTake l)
        (handOver l p.cls ⟨envelope s l k p, p.lOut⟩ (some (p.ctx, p.gen))
          (s₁.setSlot p.slot
            (if k.inFlight = 1 ∧ k.state = .draining then startScrub k else { k with inFlight := k.inFlight - 1 }))) =
        .next v ∧ exec (.protectRecordCompletion l) s = .next v) ∧
    (¬usable → ∃ t, exec (.laneFrameTake l)
        (((s.setCipher l { s.cipherOf l with recs := rest, flushDrops := (s.cipherOf l).flushDrops.bump 0 1 }).setSlot p.slot
          (if k.owner = some (p.ctx, p.gen) ∧ k.state ≠ .free ∧ k.state ≠ .scrubbing then
            { k with inFlight := k.inFlight - 1 } else k)).setTransit
          { s.transit with flushReports := s.transit.flushReports ++ [⟨p.ctx, p.gen, false⟩] }) = .next t ∧
      exec (.protectRecordCompletion l) s = .next t ∧ t.campus = s.campus ∧ t.ctxs = s.ctxs ∧
      (t.cipherOf l).flushDrops = (s.cipherOf l).flushDrops.bump 0 1 ∧
      t.transit.flushReports = s.transit.flushReports ++ [⟨p.ctx, p.gen, false⟩])

/-- R45, R46, R112, R113, R194: an envelope is as long as the frame and its expansion, and it begins with the addresses, the
clear tag if any, the envelope type value and the envelope header: version 1, the phase-and-options byte, the context tag and
the PN, and the origin label if any. These octets are the authenticated-only data; the plaintext is what follows the source
address and the clear tag, the nonce is the slot's salt, the context tag and the PN, and the ciphertext with its 16-octet tag
ends the envelope. The Galois/counter mode itself is taken from its standard (assumption 10). -/
def Obligations.EnvelopeLayout : Prop :=
  ∀ (s : State) (l : Lane) (k : Slot) (p : ProtectRec), 60 ≤ p.frame.length →
    let tagged := field p.frame 12 2 = 0x8100
    let t := if tagged ∧ p.clearTag = true then 4 else 0
    let o := if p.originLabel then 8 else 0
    (envelope s l k p).length = p.frame.length + 28 + o ∧
    slice (envelope s l k p) 0 (12 + t) = slice p.frame 0 (12 + t) ∧
    field (envelope s l k p) (12 + t) 2 = s.agent.envelopeType.toNat ∧
    field (envelope s l k p) (14 + t) 1 = 1 ∧
    field (envelope s l k p) (15 + t) 1 =
      p.phase.toNat + (if p.originLabel then 4 else 0) + (if tagged ∧ p.clearTag = true then 8 else 0) ∧
    field (envelope s l k p) (16 + t) 4 = p.tag.toNat ∧
    (p.pn < 4294967296 → field (envelope s l k p) (20 + t) 4 = p.pn) ∧
    (p.originLabel = true →
      field (envelope s l k p) (24 + t) 1 = l.val ∧
      field (envelope s l k p) (25 + t) 1 = (if tagged then 1 else 0) ∧
      field (envelope s l k p) (26 + t) 2 = (if tagged then field p.frame 14 2 % 4096 else 0) ∧
      field (envelope s l k p) (28 + t) 2 = p.entry.val ∧ field (envelope s l k p) (30 + t) 2 = p.ctx.val) ∧
    let aad := (envelope s l k p).take (24 + t + o)
    let sealed := gcmEncrypt k.key (octetsOf 4 k.salt.toNat ++ octetsOf 4 p.tag.toNat ++ octetsOf 4 p.pn) aad
      (p.frame.drop (12 + t))
    aad.length = 24 + t + o ∧ sealed.1.length = p.frame.length - 12 - t ∧ sealed.2.length = 16 ∧
      envelope s l k p = aad ++ sealed.1 ++ sealed.2

/-- R68, R70: a release that reaches a slot owned as it says lowers the in-flight count; the last one of a DRAINING slot starts
its scrub. The premise says that a reference is left that no record holds any more (assumption 5). A slot is zero from the start
of its scrub, which is the model's choice (assumption 31). -/
def Obligations.InFlightReleaseReachesItsSlot : Prop :=
  ∀ (k : SlotIx) (c : CtxIx) (g : Gen) (s : State), (s.slot k).owner = some (c, g) → (s.slot k).state ≠ .free →
    (s.slot k).state ≠ .scrubbing → holders k c g s < (s.slot k).inFlight →
    ∃ t, exec (.inFlightDecrease k c g) s = .next t ∧ t = s.setSlot k (t.slot k) ∧
      ((s.slot k).state = .draining → (s.slot k).inFlight = 1 →
        t.slot k = { s.slot k with state := .scrubbing, key := 0#256, salt := 0#32, kek := 0, inFlight := 0 }) ∧
      (((s.slot k).state ≠ .draining ∨ (s.slot k).inFlight ≠ 1) →
        t.slot k = { s.slot k with inFlight := (s.slot k).inFlight - 1 })

/-- R68, R70, R107, R116: a flush discards every PASS and PROTECT record, counts each on the lane, sends a flush-drop report for
each PROTECT record in list order, releases the reference of each at its slot, and leaves a FLUSHED record for each frame that
still waits for its answer. The receive buffer, the Campus Queue and the context records are not touched by it; after it the
lane may take a head frame that has been looked up. The row of a start that another event brings about stands for that start
(assumption 3). That a second flush leaves a FLUSHED record is assumption 25. A slot is zero from the start of its scrub, which
is the model's choice (assumption 31). -/
def Obligations.FlushDiscardsTheRecords : Prop :=
  ∀ (l : Lane) (s : State), ∃ w t, exec (.laneFrameTake l) w = .next t ∧ exec (.laneFlush l .zeroize) s = .next t ∧
    w = { s with ks := { s.ks with slots := w.ks.slots }, cipher := w.cipher, transit := w.transit } ∧
    (∀ j, j ≠ l → w.cipherOf j = s.cipherOf j) ∧
    (w.cipherOf l).recs = ((s.cipherOf l).recs.filter flushLeaves).map (fun _ => Rec.flushed) ∧
    (w.cipherOf l).request = (s.cipherOf l).request ∧
    ((s.cipherOf l).flushDrops.bounded → look (w.cipherOf l).flushDrops.vals 0 =
      min (look (s.cipherOf l).flushDrops.vals 0 + ((s.cipherOf l).recs.filter (fun r => !flushLeaves r)).length)
        counterMax) ∧
    w.transit = { s.transit with
      flushReports := s.transit.flushReports ++ (s.cipherOf l).recs.filterMap (fun r =>
        match r with
        | .protect p => some ⟨p.ctx, p.gen, false⟩
        | _ => none) } ∧
    (∀ k, (s.slot k).owner = none → w.slot k = s.slot k) ∧
    (∀ k c g, (s.slot k).owner = some (c, g) →
      let n := ((s.cipherOf l).recs.filter (fun r =>
        match r with
        | .protect p => p.slot == k && p.ctx == c && p.gen == g
        | _ => false)).length
      w.slot k =
        if (s.slot k).state = .free ∨ (s.slot k).state = .scrubbing then s.slot k
        else if (s.slot k).state = .draining ∧ 0 < (s.slot k).inFlight ∧ (s.slot k).inFlight ≤ n then startScrub (s.slot k)
        else { s.slot k with inFlight := (s.slot k).inFlight - n }) ∧
    ((s.rxOf l).headAction = none → t = w)

/-! ## Campus Queues -/

/-- R121 to R123, R126, R128, R129: a frame handed over while the link is UP is admitted when its class occupancy and the total
occupancy both have room: it joins the tail of its class queue as it was handed over, an IDLE transmitter starts, and each
occupancy grows by its L_out; otherwise it is a queue drop of its class, reported for a protected frame, and no occupancy
changes. While the link is DOWN it is a link-down drop, with no report. The row of a start that another event brings about
stands for that start (assumption 3). -/
def Obligations.HandOverAdmitsOrDrops : Prop :=
  ∀ (l : Lane) (cls : Cls) (f : CampusFrame) (owner : Option (CtxIx × Gen)) (s : State),
    let q := s.campusOf l
    let t := handOver l cls f owner s
    (q.linkUp = true → classOccupancy q cls + f.lOut ≤ look q.limits cls → totalOccupancy q + f.lOut ≤ 1048576 →
      exec (.campusTransmitStart l)
        (s.setCampus l { q with queues := put q.queues cls (look q.queues cls ++ [f]) }) = .next t ∧
      classOccupancy (t.campusOf l) cls = classOccupancy q cls + f.lOut ∧
      (∀ d, d ≠ cls → classOccupancy (t.campusOf l) d = classOccupancy q d) ∧
      totalOccupancy (t.campusOf l) = totalOccupancy q + f.lOut ∧ (t.campusOf l).sending.isSome = true ∧
      (t.campusOf l).counters = q.counters ∧ t = s.setCampus l (t.campusOf l)) ∧
    (q.linkUp = true → look q.limits cls < classOccupancy q cls + f.lOut ∨ 1048576 < totalOccupancy q + f.lOut →
      t = (s.setCampus l (q.count (.queueDrops cls) 1)).setTransit
        { s.transit with queueReports := s.transit.queueReports ++ owner.toList }) ∧
    (q.linkUp = false → t = s.setCampus l (q.count .linkDownDrops 1))

/-- R126, R127, R129, R130: a transmission starts with the head of the highest-numbered class queue that is not empty, and no
occupancy changes; at its end the frame is counted with its L_out and leaves the occupancies, and the next transmission starts.
A report that the campus link is down discards every frame queued or in transmission, counts each, and empties the occupancies;
a report that it is up changes the link state alone. The row of a start that another event brings about stands for that start
(assumption 3). -/
def Obligations.CampusTransmitter : Prop :=
  (∀ (l : Lane) (s : State) (cls : Cls) (f : CampusFrame) (rest : List CampusFrame), (s.campusOf l).linkUp = true →
    (s.campusOf l).sending = none → look (s.campusOf l).queues cls = f :: rest →
    (∀ d : Cls, cls.val < d.val → look (s.campusOf l).queues d = []) →
    ∃ t, exec (.campusTransmitStart l) s = .next t ∧
      t = s.setCampus l { s.campusOf l with queues := put (s.campusOf l).queues cls rest, sending := some (cls, f) } ∧
      totalOccupancy (t.campusOf l) = totalOccupancy (s.campusOf l)) ∧
  (∀ (l : Lane) (s : State) (cls : Cls) (f : CampusFrame), (s.campusOf l).sending = some (cls, f) →
    ∃ t, exec (.campusTransmitEnd l) s = .next t ∧ t = s.setCampus l (t.campusOf l) ∧
      exec (.campusTransmitStart l) (s.setCampus l ((({ s.campusOf l with sending := none } : CampusQueue).count
        .transmittedFrames 1).count .transmittedBytes f.lOut)) = .next t ∧
      totalOccupancy (t.campusOf l) + f.lOut = totalOccupancy (s.campusOf l)) ∧
  (∀ (l : Lane) (s : State), (s.campusOf l).linkUp = true → ∃ t, exec (.campusLinkDown l) s = .next t ∧
    t = s.setCampus l (t.campusOf l) ∧ totalOccupancy (t.campusOf l) = 0 ∧ (t.campusOf l).sending = none ∧
    (∀ cls, look (t.campusOf l).queues cls = []) ∧ (t.campusOf l).linkUp = false ∧
    (t.campusOf l).limits = (s.campusOf l).limits ∧ (t.campusOf l).frameLimit = (s.campusOf l).frameLimit ∧
    (t.campusOf l).counters = (s.campusOf l).counters.bump CampusCounter.linkDownDrops.ix
      ((look (s.campusOf l).queues 0).length + (look (s.campusOf l).queues 1).length +
        (look (s.campusOf l).queues 2).length + (look (s.campusOf l).queues 3).length +
        (if (s.campusOf l).sending.isSome then 1 else 0))) ∧
  (∀ (l : Lane) (s : State), (s.campusOf l).linkUp = false →
    exec (.campusLinkDown l) s = .next s ∧
      exec (.campusLinkUp l) s = .next (s.setCampus l { s.campusOf l with linkUp := true }))

/-! ## Key Store -/

/-- R76 to R78, R82: an IDLE engine starts the job at the head of the queue with the unwrapping key as it stands: the KEK entry
that the slot names for a DATA job, the management key for the others. A DATA job that finds its KEK EMPTY fails at once with
cause KEK_ABSENT, and the engine goes on to the next job. A DATA job that succeeds writes its key into its slot, which stays
UNWRAPPING, and delivers a success; one that fails records its failure and delivers it. The row of a start that another event
brings about stands for that start (assumption 3). The engine's next job starts in the same event (assumption 4). -/
def Obligations.DataJobRuns : Prop :=
  (∀ (s : State) (rest : List Job), s.ks.running = none →
    (∀ k c g w key, s.ks.jobs = .data k c g w :: rest → look s.ks.keks (s.slot k).kek = some key →
      exec .unwrapJobStart s = .next (s.setKs { s.ks with jobs := rest, running := some ⟨.data k c g w, key⟩ })) ∧
    (∀ k c g w, s.ks.jobs = .data k c g w :: rest → look s.ks.keks (s.slot k).kek = none →
      exec .unwrapJobStart s = exec .unwrapJobStart
        ((s.setKs { s.ks with jobs := rest, lastFailure := some (.data k c g, .kekAbsent) }).setTransit
          { s.transit with results := s.transit.results ++ [⟨k, c, g, .failure .kekAbsent⟩] })) ∧
    (∀ i w n key, s.ks.jobs = .kek i w n :: rest → s.ks.mgmtKey = some key →
      exec .unwrapJobStart s = .next (s.setKs { s.ks with jobs := rest, running := some ⟨.kek i w n, key⟩ })) ∧
    (∀ w n key, s.ks.jobs = .mk w n :: rest → s.ks.mgmtKey = some key →
      exec .unwrapJobStart s = .next (s.setKs { s.ks with jobs := rest, running := some ⟨.mk w n, key⟩ }))) ∧
  (∀ (s : State) (k : SlotIx) (c : CtxIx) (g : Gen) (w : Bytes) (kek : Key),
    s.ks.running = some ⟨.data k c g w, kek⟩ →
    let s₁ := s.setKs { s.ks with running := none }
    (∀ key, unwrapKey kek w = some key → (s.slot k).state = .unwrapping →
      exec .unwrapJobComplete s = exec .unwrapJobStart
        ((s₁.setSlot k { s.slot k with key := key }).setTransit
          { s.transit with results := s.transit.results ++ [⟨k, c, g, .success⟩] })) ∧
    (unwrapKey kek w = none →
      exec .unwrapJobComplete s = exec .unwrapJobStart
        ((s₁.setKs { s₁.ks with lastFailure := some (.data k c g, .check) }).setTransit
          { s.transit with results := s.transit.results ++ [⟨k, c, g, .failure .check⟩] })))

/-- R71, R74, R81, R82: a KEK or MK job that succeeds writes its target and the waiting command is answered OK; one that fails
leaves the target and the command is answered UNWRAP_FAIL with the cause CHECK. Without a waiting command no response is built,
and the target is written all the same. The number that tells the waiting command is the model's (assumption 16). -/
def Obligations.KekAndMkJobsComplete : Prop :=
  (∀ (s : State) (i : KekIx) (w : Bytes) (n : Nat) (mk : Key), s.ks.running = some ⟨.kek i w n, mk⟩ → s.ks.jobs = [] →
    (∀ key, unwrapKey mk w = some key →
      let u := s.setKs { s.ks with running := none, keks := put s.ks.keks i (some key),
                                   successes := min (s.ks.successes + 1) counterMax }
      ∃ t, exec .unwrapJobComplete s = .next t ∧
        (∀ c, waitingCommand n s = some c → Answered u c .ok (octetsOf 1 i.val) t) ∧ (waitingCommand n s = none → t = u)) ∧
    (unwrapKey mk w = none →
      let u := s.setKs { s.ks with running := none, lastFailure := some (.kek i, .check),
                                   failures := min (s.ks.failures + 1) counterMax }
      ∃ t, exec .unwrapJobComplete s = .next t ∧
        (∀ c, waitingCommand n s = some c → Answered u c .unwrapFail [1#8] t) ∧ (waitingCommand n s = none → t = u))) ∧
  (∀ (s : State) (w : Bytes) (n : Nat) (mk : Key), s.ks.running = some ⟨.mk w n, mk⟩ → s.ks.jobs = [] →
    (∀ key, unwrapKey mk w = some key →
      let u := s.setKs { s.ks with running := none, mgmtKey := some key,
                                   successes := min (s.ks.successes + 1) counterMax }
      ∃ t, exec .unwrapJobComplete s = .next t ∧
        (∀ c, waitingCommand n s = some c → Answered u c .ok [] t) ∧ (waitingCommand n s = none → t = u)) ∧
    (unwrapKey mk w = none →
      let u := s.setKs { s.ks with running := none, lastFailure := some (.mk, .check),
                                   failures := min (s.ks.failures + 1) counterMax }
      ∃ t, exec .unwrapJobComplete s = .next t ∧
        (∀ c, waitingCommand n s = some c → Answered u c .unwrapFail [1#8] t) ∧ (waitingCommand n s = none → t = u)))

/-- R69, R70, R79, R89, R93, R187, R188: a DATA result is bound only while its slot still waits for it and its context still
names the slot as next under the recorded generation. The four rows of the table of R79: nothing; set aside and scrubbed; READY
with NEXT_READY, and the switch at once in KEYLESS, HALTED or with the switch pending, which makes the slot CURRENT and releases
the one before it; failed and scrubbed with UNWRAP_FAILED. Every rise is handled at the Notice Unit. Written out for a switch
where both flags are clear and enabled and the Notice Queue holds records and has room for two: the rises give two records in
the order of R38, which both show the record as the event leaves it. A slot is zero from the start of its scrub, which is the
model's choice (assumption 31). -/
def Obligations.DataResultIsBoundOrSetAside : Prop :=
  ∀ (n : Nat) (r : DataResult) (s : State), s.transit.results[n]? = some r →
    let s₁ := s.setTransit { s.transit with results := s.transit.results.eraseIdx n }
    let x := s.ctx r.ctx
    let waits := (s.slot r.slot).state = .unwrapping ∧ (s.slot r.slot).owner = some (r.ctx, r.gen)
    let bound := x.generation = r.gen ∧ x.next.map Prod.fst = some r.slot
    ∃ t, exec (.dataResult n) s = .next t ∧ RisesHandled r.ctx x.flags (ownEffect r.ctx s t) t ∧
      (¬waits → t = s₁) ∧
      (waits → ¬bound → Settled ((s₁.setSlot r.slot (startScrub (s.slot r.slot))).setKs
        { (s₁.setSlot r.slot (startScrub (s.slot r.slot))).ks with setAside := min (s.ks.setAside + 1) counterMax }) t) ∧
      (waits → bound → r.outcome = .success →
        t.ks.successes = min (s.ks.successes + 1) counterMax ∧ hasFlag (t.ctx r.ctx).flags CtxFlag.nextReady.bit = true ∧
        (x.state = .active → x.switchPending = false →
          t.slot r.slot = { s.slot r.slot with state := .ready } ∧ (∀ k, k ≠ r.slot → t.slot k = s.slot k) ∧
          (t.ctx r.ctx).next = some (r.slot, .ready) ∧
          (t.ctx r.ctx).current = x.current ∧ (t.ctx r.ctx).nextPn = x.nextPn) ∧
        (x.state = .keyless ∨ x.state = .halted ∨ (x.switchPending = true ∧ x.current ≠ some r.slot) →
          (t.ctx r.ctx).state = .active ∧ (t.ctx r.ctx).current = some r.slot ∧ (t.ctx r.ctx).next = none ∧
          (t.ctx r.ctx).nextPn = 1 ∧ (t.ctx r.ctx).switchPending = false ∧
          (t.ctx r.ctx).phase = (if x.state = .keyless then x.initialPhase else x.phase + 1#2) ∧
          hasFlag (t.ctx r.ctx).flags CtxFlag.switched.bit = true ∧
          TenureEnded r.ctx (some r.slot) (s.setSlot r.slot { s.slot r.slot with state := .ready }) t ∧
          (s.notice.master = true → hasFlag x.enables CtxFlag.nextReady.bit = true →
            hasFlag x.enables CtxFlag.switched.bit = true → hasFlag x.flags CtxFlag.nextReady.bit = false →
            hasFlag x.flags CtxFlag.switched.bit = false → s.notice.queue ≠ [] → s.notice.queue.length ≤ 62 →
            let m (f : CtxFlag) : NoticeRecord := ⟨.context r.ctx f, x.generation, .direct, .active,
              if x.state = .keyless then x.initialPhase else x.phase + 1#2, 1, 0, 0, s.ks.freeSlots⟩
            t.notice.queue = s.notice.queue ++ [m .nextReady, m .switched]))) ∧
      (∀ cause, waits → bound → r.outcome = .failure cause →
        t.ks.failures = min (s.ks.failures + 1) counterMax ∧ t.slot r.slot = startScrub (s.slot r.slot) ∧
        (∀ k, k ≠ r.slot → t.slot k = s.slot k) ∧
        (t.ctx r.ctx).next = none ∧ (t.ctx r.ctx).state = x.state ∧ (t.ctx r.ctx).current = x.current ∧
        (t.ctx r.ctx).switchPending = x.switchPending ∧ hasFlag (t.ctx r.ctx).flags CtxFlag.unwrapFailed.bit = true)

/-- R67, R70: the completion of a scrub makes the slot FREE without an owner, and the number of FREE slots rises by 1. It finds
the slot zeroed at the start of its scrub, which is the model's choice (assumption 31). -/
def Obligations.ScrubCompletes : Prop :=
  ∀ (k : SlotIx) (s : State), (s.slot k).state = .scrubbing → ∃ t, exec (.scrubComplete k) s = .next t ∧
    t.slot k = { s.slot k with state := .free, owner := none } ∧ (∀ j, j ≠ k → t.slot j = s.slot j) ∧
    t.ks.freeSlots = s.ks.freeSlots + 1 ∧ t.notice = s.notice ∧ t.ctxs = s.ctxs ∧
    t = { s with ks := { s.ks with slots := t.ks.slots, freeSlots := t.ks.freeSlots }, agent := t.agent } ∧
    ({ t.agent with progress := none } : Agent) = { s.agent with progress := none }

/-! ## Age Timer -/

/-- R136, R138, R140, R186 to R188: while the enable is set, a reference tick advances the prescale divider, whose wrap is a
count step; a count step advances the count divider, whose wrap is an age tick; an age tick starts a pass when none runs, and is
owed, or lost at 15, and raises SWEEP_LAG when one does, its rise handled at the Notice Unit. A pass starts when ticks are owed
and none runs: it takes the owed count as its increment and the stored sweep range, and over an empty range it completes at
once. The rows of a count step and of an age tick, sent alone, take that part alone while the enable is set (assumption 6). -/
def Obligations.TimeBaseProducesAgeTicks : Prop :=
  (∀ s : State, s.age.enable = true →
    (s.age.prescaleDiv + 1 < s.age.prescale →
      exec .referenceTick s = .next (s.setAge { s.age with prescaleDiv := s.age.prescaleDiv + 1 })) ∧
    (s.age.prescale ≤ s.age.prescaleDiv + 1 →
      ∃ t, exec .referenceTick s = .next t ∧ exec .countStep (s.setAge { s.age with prescaleDiv := 0 }) = .next t) ∧
    (s.age.countDiv + 1 < s.age.count →
      exec .countStep s = .next (s.setAge { s.age with countDiv := s.age.countDiv + 1 })) ∧
    (s.age.count ≤ s.age.countDiv + 1 →
      ∃ t, exec .countStep s = .next t ∧ exec .ageTick (s.setAge { s.age with countDiv := 0 }) = .next t) ∧
    (s.age.pass = none → s.age.owed = 0 → exec .ageTick s = exec .passStart (s.setAge { s.age with owed := 1 })) ∧
    (s.age.pass.isSome = true → s.age.owed < 15 → ∃ t, exec .ageTick s = .next t ∧
      Settled (s.setAge { s.age with owed := s.age.owed + 1 }) t ∧ hasFlag t.notice.flags DevFlag.sweepLag.bit = true ∧
      DeviceRiseHandled .sweepLag (s.setAge { s.age with owed := s.age.owed + 1 }) t) ∧
    (s.age.pass.isSome = true → 15 ≤ s.age.owed → ∃ t, exec .ageTick s = .next t ∧
      Settled (s.setAge { s.age with lostTicks := min (s.age.lostTicks + 1) counterMax }) t ∧
      hasFlag t.notice.flags DevFlag.sweepLag.bit = true ∧
      DeviceRiseHandled .sweepLag (s.setAge { s.age with lostTicks := min (s.age.lostTicks + 1) counterMax }) t)) ∧
  (∀ s : State, s.age.pass = none → 0 < s.age.owed →
    (s.age.sweepStart.val ≤ s.age.sweepStop.val → exec .passStart s =
      .next (s.setAge { s.age with
        owed := 0, pass := some ⟨s.age.owed, s.age.sweepStart, s.age.sweepStop, s.age.sweepStart⟩ })) ∧
    (s.age.sweepStop.val < s.age.sweepStart.val → exec .passStart s = .next (s.setAge { s.age with owed := 0 })))

/-- R29, R52, R60, R61, R69, R70, R89, R141, R142, R146, R187, R188: a visit is taken at its context: the visit of the pass
position, or one that an abandoned pass had sent (where several wait, a free value decides which is taken, assumption 29). It
changes no context that is not ACTIVE and ages an ACTIVE one by its increment up to 65,535. The visit of the pass position moves
the position on, or completes the pass at its end; one left by an abandoned pass leaves the Age Timer as it is. With age in its
set and below its hard limit, a context whose age stays below its soft threshold, or has crossed before, only ages; otherwise it
takes a soft crossing, which under AUTO_ROLL switches to a READY next slot. A visit that carries the age of a context with age
in its set to its age hard limit ends the tenure: by a switch with a READY next slot, whether at the soft crossing or at the
hard event, and in HALTED otherwise, with the age kept. A switch makes the new slot CURRENT, and the end of a tenure sends the
old one to DRAINING, or to SCRUBBING with no frame in flight. Every rise is handled at the Notice Unit. The row of a start that
another event brings about stands for that start (assumption 3). A slot is zero from the start of its scrub, which is the
model's choice (assumption 31). -/
def Obligations.SweepVisitAgesTheContext : Prop :=
  (∀ s : State, s.age.pass.isSome = true ∨ s.transit.visits ≠ [] → ∃ place c inc, nextVisit s = some (place, c, inc) ∧
    (place = none → ∃ p, s.age.pass = some p ∧ c = p.position ∧ inc = p.increment) ∧
    (∀ n, place = some n → s.transit.visits[n]? = some (c, inc))) ∧
  (∀ (s : State) (place : Option Nat) (c : CtxIx) (inc : Nat), nextVisit s = some (place, c, inc) →
    ∃ t, exec .sweepVisit s = .next t ∧ RisesHandled c (s.ctx c).flags (ownEffect c s t) t ∧
    (∀ j, j ≠ c → { t.ctx j with owed := 0#8 } = { s.ctx j with owed := 0#8 }) ∧
    ((s.ctx c).state ≠ .active → { t.ctx c with owed := 0#8 } = { s.ctx c with owed := 0#8 } ∧ t.ks = s.ks) ∧
    ((s.ctx c).state = .active → ageInSet (s.ctx c).condition = false → t.ks = s.ks ∧
      (t.ctx c).age = min ((s.ctx c).age + inc) 65535 ∧
      (t.ctx c).state = .active ∧ (t.ctx c).current = (s.ctx c).current ∧
      (t.ctx c).nextPn = (s.ctx c).nextPn ∧ (t.ctx c).blocks = (s.ctx c).blocks ∧
      (65535 < (s.ctx c).age + inc → hasFlag (t.ctx c).flags CtxFlag.saturated.bit = true)) ∧
    (∀ p, place = none → s.age.pass = some p → t.transit = s.transit ∧
      (∀ q, p.position.val < p.stop.val → q.val = p.position.val + 1 →
        t.age = { s.age with pass := some { p with position := q } }) ∧
      (p.stop.val ≤ p.position.val → exec .passStart (s.setAge { s.age with pass := none }) = .next (s.setAge t.age))) ∧
    (∀ n, place = some n → t.age = s.age ∧
      t.transit = { s.transit with visits := s.transit.visits.eraseIdx n })) ∧
  (∀ (s : State) (place : Option Nat) (c : CtxIx) (inc : Nat), nextVisit s = some (place, c, inc) →
    let r := s.ctx c
    r.state = .active → ageInSet r.condition = true → r.thresholds.ageHard ≤ 65535 →
    r.age + inc < r.thresholds.ageHard → ∃ t, exec .sweepVisit s = .next t ∧
      (r.softReached = true ∨ r.age + inc < r.thresholds.ageSoft → t.ks = s.ks ∧
        { t.ctx c with owed := 0#8 } = { r with owed := 0#8, age := r.age + inc }) ∧
      (r.softReached = false → r.thresholds.ageSoft ≤ r.age + inc →
        (r.options.autoRoll = false ∨ nextReady r = false → t.ks = s.ks ∧ (t.ctx c).state = .active ∧
          (t.ctx c).current = r.current ∧ (t.ctx c).next = r.next ∧
          (t.ctx c).nextPn = r.nextPn ∧ (t.ctx c).blocks = r.blocks ∧
          (t.ctx c).age = r.age + inc ∧ (t.ctx c).phase = r.phase ∧
          (t.ctx c).softReached = true ∧
          (t.ctx c).switchPending = (r.options.autoRoll || r.switchPending) ∧
          (t.ctx c).flags = (if r.next = none then r.flags ||| 0x80#8 else r.flags)) ∧
        (∀ n, r.options.autoRoll = true → r.next = some (n, .ready) → TenureEnded c (some n) s t ∧
          (t.ctx c).state = .active ∧ (t.ctx c).current = some n ∧ (t.ctx c).next = none ∧
          (t.ctx c).nextPn = 1 ∧
          (t.ctx c).blocks = 0 ∧ (t.ctx c).age = 0 ∧ (t.ctx c).phase = r.phase + 1#2 ∧
          (t.ctx c).softReached = false ∧ (t.ctx c).switchPending = false ∧
          hasFlag (t.ctx c).flags CtxFlag.switched.bit = true))) ∧
  (∀ (s : State) (place : Option Nat) (c : CtxIx) (inc : Nat), nextVisit s = some (place, c, inc) →
    let r := s.ctx c
    r.state = .active → ageInSet r.condition = true → 1 ≤ r.thresholds.ageHard →
    r.thresholds.ageHard ≤ min (r.age + inc) 65535 →
    ∃ t, exec .sweepVisit s = .next t ∧
      (∀ n, r.next = some (n, .ready) → TenureEnded c (some n) s t ∧
        (t.ctx c).state = .active ∧ (t.ctx c).current = some n ∧
        (t.ctx c).nextPn = 1 ∧ (t.ctx c).age = 0 ∧ (t.ctx c).phase = r.phase + 1#2 ∧
        hasFlag (t.ctx c).flags CtxFlag.switched.bit = true) ∧
      (nextReady r = false → TenureEnded c none s t ∧
        (t.ctx c).state = .halted ∧ (t.ctx c).current = none ∧
        (t.ctx c).nextPn = 0 ∧ (t.ctx c).age = min (r.age + inc) 65535 ∧
        (t.ctx c).next = r.next ∧ hasFlag (t.ctx c).flags CtxFlag.halted.bit = true ∧
        hasFlag (t.ctx c).flags CtxFlag.keyWanted.bit = true))

/-! ## Return Merges and notices -/

/-- R162, R164, R186 to R188: a campus frame with good FCS and an accepted length joins the Relay FIFO while the trunk link is
UP and the FIFO has room, a relay drop with RELAY_DROP when it has none, a relay drop while the link is DOWN, and a relay error
otherwise. A RELAY_DROP that is set does not rise again; a rise makes a DIRECT record of the device at the tail of the Notice
Queue, its owed mark where 64 records wait, and neither where its enable or the master enable is clear. The row of a start that
another event brings about stands for that start (assumption 3). That a frame refused while the link is DOWN does not raise
RELAY_DROP is assumption 19. -/
def Obligations.CampusFrameReception : Prop :=
  ∀ (l : Lane) (rx : RxFrame) (s : State),
    let n := rx.octets.length
    let f := rx.octets.take (n - 4)
    let m := s.mergeOf l
    let sound := 64 ≤ n ∧ n ≤ 9216 ∧ rx.ending = .good
    ∃ t, exec (.campusFrameReceived l rx) s = .next t ∧
      (¬sound → t = s.setMerge l (m.count .relayErrors 1)) ∧
      (sound → m.linkUp = false → t = s.setMerge l (m.count .relayDrops 1)) ∧
      (sound → m.linkUp = true → relayOccupancy m + f.length ≤ 65536 →
        exec (.trunkTransmitStart l) (s.setMerge l { m with relay := m.relay ++ [f] }) = .next t ∧
        relayOccupancy (t.mergeOf l) = relayOccupancy m + f.length) ∧
      (sound → m.linkUp = true → 65536 < relayOccupancy m + f.length →
        Settled (s.setMerge l (m.count .relayDrops 1)) t ∧
        (t.mergeOf l).counters = m.counters.bump MergeCounter.relayDrops.ix 1 ∧
        hasFlag t.notice.flags DevFlag.relayDrop.bit = true ∧
        let u := s.setMerge l (m.count .relayDrops 1)
        let n := { s.notice with flags := s.notice.flags ||| 0x04#6 }
        let enabled := s.notice.master = true ∧ hasFlag s.notice.enables DevFlag.relayDrop.bit = true
        let d : NoticeRecord := ⟨.device .relayDrop, 0#16, .direct, .undefined, 0#2, 0, 0, 0, s.ks.freeSlots⟩
        (hasFlag s.notice.flags DevFlag.relayDrop.bit = true → t = u) ∧
        (hasFlag s.notice.flags DevFlag.relayDrop.bit = false →
          (¬enabled → t = u.setNotice n) ∧
          (enabled → s.notice.queue ≠ [] → s.notice.queue.length < 64 →
            t = u.setNotice { n with queue := s.notice.queue ++ [d] }) ∧
          (enabled → s.notice.queue = [] → exec .noticeDeparture (u.setNotice { n with queue := [d] }) = .next t) ∧
          (enabled → 64 ≤ s.notice.queue.length → t = u.setNotice { n with owed := s.notice.owed ||| 0x04#6 })))

/-- R163, R164: an IDLE trunk transmitter with its link UP sends the head of the control output queue, and a relayed frame only
when that queue is empty; at the end of a transmission the frame is counted by its kind. A report that the trunk link is down
discards the control-origin frames and the relayed frames of the lane, one in transmission of either kind among them, and counts
each; a reservation stays (with an empty intake, so that no command begins in the same event). A report that it is up starts
what waits. The row of a start that another event brings about stands for that start (assumption 3). -/
def Obligations.TrunkTransmitter : Prop :=
  (∀ (l : Lane) (s : State) (f : ControlFrame) (rest : List ControlFrame), (s.mergeOf l).linkUp = true →
    (s.mergeOf l).sending = none → (s.mergeOf l).control = f :: rest →
    exec (.trunkTransmitStart l) s = .next (s.setMerge l { s.mergeOf l with control := rest, sending := some (.control f) })) ∧
  (∀ (l : Lane) (s : State) (f : Bytes) (rest : List Bytes), (s.mergeOf l).linkUp = true →
    (s.mergeOf l).sending = none → (s.mergeOf l).control = [] → (s.mergeOf l).relay = f :: rest →
    exec (.trunkTransmitStart l) s = .next (s.setMerge l { s.mergeOf l with relay := rest, sending := some (.relayed f) })) ∧
  (∀ (l : Lane) (s : State), s.agent.intake = [] → s.notice.queue = [] →
    (∀ f, (s.mergeOf l).sending = some (.control f) → exec (.trunkTransmitEnd l) s =
      exec (.trunkTransmitStart l)
        (s.setMerge l (({ s.mergeOf l with sending := none } : ReturnMerge).count .controlSent 1))) ∧
    (∀ f, (s.mergeOf l).sending = some (.relayed f) → exec (.trunkTransmitEnd l) s =
      exec (.trunkTransmitStart l)
        (s.setMerge l (({ s.mergeOf l with sending := none } : ReturnMerge).count .relayedFrames 1)))) ∧
  (∀ (l : Lane) (s : State),
    (∀ f, (s.mergeOf l).sending = some (.control f) → ∃ v t, exec (.trunkTransmitStart l)
        (s.setMerge l (({ s.mergeOf l with sending := none } : ReturnMerge).count .controlSent 1)) = .next v ∧
      exec (.trunkTransmitEnd l) s = .next t ∧ Settled v t) ∧
    (∀ f, (s.mergeOf l).sending = some (.relayed f) → ∃ v t, exec (.trunkTransmitStart l)
        (s.setMerge l (({ s.mergeOf l with sending := none } : ReturnMerge).count .relayedFrames 1)) = .next v ∧
      exec (.trunkTransmitEnd l) s = .next t ∧ Settled v t)) ∧
  (∀ (l : Lane) (s : State), (s.mergeOf l).linkUp = true → s.agent.intake = [] → ∃ t, exec (.trunkLinkDown l) s = .next t ∧
    (t.mergeOf l).linkUp = false ∧ (t.mergeOf l).control = [] ∧ (t.mergeOf l).relay = [] ∧ (t.mergeOf l).sending = none ∧
    (t.mergeOf l).reserved = (s.mergeOf l).reserved ∧
    (t.mergeOf l).counters =
      (((s.mergeOf l).counters.bump MergeCounter.controlDiscards.ix (controlOrigin (s.mergeOf l)).length).bump
        MergeCounter.noticeDiscards.ix ((controlOrigin (s.mergeOf l)).filter ControlFrame.notice).length).bump
        MergeCounter.relayDrops.ix ((s.mergeOf l).relay.length +
          (match (s.mergeOf l).sending with | some (.relayed _) => 1 | _ => 0))) ∧
  (∀ (l : Lane) (s : State), (s.mergeOf l).linkUp = false →
    (s.notice.queue = [] →
      exec (.trunkLinkUp l) s = exec (.trunkTransmitStart l) (s.setMerge l { s.mergeOf l with linkUp := true })) ∧
    ∃ v t, exec (.trunkTransmitStart l) (s.setMerge l { s.mergeOf l with linkUp := true }) = .next v ∧
      exec (.trunkLinkUp l) s = .next t ∧ Settled v t)

/-- R156, R188 to R191, R196: with the route set, its link UP and room in its control output queue, the head record leaves as a
notice frame to the route's address, which carries the notice sequence as its request tag, the record as its 22-octet body,
field by field as R196 lays it out, and the CMAC of header and body under the management key, or zeros while the key is UNSET;
these fill its 60 octets, so that no padding follows. The sequence advances by 1. The freed place goes to the first owed mark:
device marks in the order of R189, then the marks of the context with the lowest index, in the order of R38; the mark is cleared
and an OWED record joins the tail. With no owed mark set the place stays free. One record leaves in one event (assumption 26).
-/
def Obligations.NoticeDeparts : Prop :=
  (∀ (s : State) (r : NoticeRoute) (n : NoticeRecord) (rest : List NoticeRecord), s.notice.route = some r →
    s.notice.queue = n :: rest → (s.mergeOf r.lane).linkUp = true → placesUsed (s.mergeOf r.lane) < 16 →
    let source := match n.source with | .context c _ => octetsOf 2 c.val | .device _ => octetsOf 2 65535
    let flag := match n.source with
      | .context _ .keyWanted => 128
      | .context _ .nextReady => 64
      | .context _ .switched => 32
      | .context _ .halted => 16
      | .context _ .unwrapFailed => 8
      | .context _ .oversize => 4
      | .context _ .queueDrop => 2
      | .context _ .saturated => 1
      | .device .authFail => 32
      | .device .sweepLag => 16
      | .device .poolLow => 8
      | .device .relayDrop => 4
      | .device .controlDrop => 2
      | .device .zeroized => 1
    let delivery := match n.delivery with | .direct => 0 | .owed => 1
    let state := match n.state with | .undefined => 0 | .keyless => 1 | .active => 2 | .halted => 3
    let body := source ++ octetsOf 2 n.generation.toNat ++ octetsOf 1 flag ++ octetsOf 1 delivery ++ octetsOf 1 state ++
      octetsOf 1 n.phase.toNat ++ octetsOf 4 n.nextPn ++ octetsOf 6 n.blocks ++ octetsOf 2 n.age ++ octetsOf 2 n.freeSlots
    body.length = 22 ∧ ∃ t f, exec .noticeDeparture s = .next t ∧ Settled s t ∧ t.notice.sequence = s.notice.sequence + 1#16 ∧
      t.agent = s.agent ∧
      controlOrigin (t.mergeOf r.lane) = controlOrigin (s.mergeOf r.lane) ++ [⟨f, true⟩] ∧ f.length = 60 ∧
      slice f 0 6 = macOctets r.address ∧ slice f 6 6 = macOctets s.agent.address ∧ field f 12 2 = 0x9D4F ∧
      slice f 14 8 = controlHeader 0x7F false 0 s.notice.sequence.toNat 22 ∧ slice f 22 22 = body ∧
      (s.ks.mgmtKey = none → slice f 44 16 = zeros 16) ∧
      (∀ k, s.ks.mgmtKey = some k → slice f 44 16 = cmac k (slice f 14 30)) ∧
      (s.notice.owed = 0#6 → (∀ c, (s.ctx c).owed = 0#8) → t.notice.queue = rest ∧ t.ctxs = s.ctxs)) ∧
  (∀ (s : State) (r : NoticeRoute) (n : NoticeRecord) (rest : List NoticeRecord), s.notice.route = some r →
    s.notice.queue = n :: rest → (s.mergeOf r.lane).linkUp = true → placesUsed (s.mergeOf r.lane) < 16 →
    (∀ (f : DevFlag) (before after : List DevFlag), DevFlag.all = before ++ f :: after →
      (∀ g ∈ before, hasFlag s.notice.owed g.bit = false) → hasFlag s.notice.owed f.bit = true →
      ∃ t, exec .noticeDeparture s = .next t ∧
        t.notice.queue = rest ++ [⟨.device f, 0#16, .owed, .undefined, 0#2, 0, 0, 0, s.ks.freeSlots⟩] ∧
        hasFlag t.notice.owed f.bit = false ∧ (∀ g, g ≠ f → hasFlag t.notice.owed g.bit = hasFlag s.notice.owed g.bit) ∧
        t.ctxs = s.ctxs) ∧
    (∀ (c : CtxIx) (f : CtxFlag) (before after : List CtxFlag), s.notice.owed = 0#6 →
      (∀ d : CtxIx, d.val < c.val → (s.ctx d).owed = 0#8) → CtxFlag.all = before ++ f :: after →
      (∀ g ∈ before, hasFlag (s.ctx c).owed g.bit = false) → hasFlag (s.ctx c).owed f.bit = true →
      let x := s.ctx c
      ∃ t, exec .noticeDeparture s = .next t ∧ t.notice.queue = rest ++
          [⟨.context c f, x.generation, .owed, x.state, x.phase, x.nextPn, x.blocks, x.age, s.ks.freeSlots⟩] ∧
        hasFlag (t.ctx c).owed f.bit = false ∧
        (∀ g, g ≠ f → hasFlag (t.ctx c).owed g.bit = hasFlag (s.ctx c).owed g.bit) ∧
        (∀ d, d ≠ c → t.ctx d = s.ctx d)))

/-! ## The Control Agent -/

/-- R153, R154, R167: an IDLE agent begins the head of intake when its lane's control output queue has room. Checks 1 to 4 of
R154 refuse it with a response and leave every other block as it was; otherwise it becomes the command in progress, with a place
reserved for its response; a DEVICE_STATUS_READ holds the agent's own part from then on. The codes and the body lengths are
those of chapter 10. A head taken unauthenticated while the management key is now SET is discarded without a response, counted
in auth failures, and raises AUTH_FAIL, and the agent examines the next head in the same event. That checks 1 to 4 are made at
this event is assumption 14; the number that tells the command is the model's (assumption 16). -/
def Obligations.CommandBegins : Prop :=
  (∀ (s : State) (f : IntakeFrame), s.agent.progress = none → s.agent.intake = [f] →
    (f.auth = true ∨ s.ks.mgmtKey = none) → placesUsed (s.mergeOf f.lane) < 16 → s.notice.queue = [] →
    let code := ctlCode f.frame
    let len := ctlBodyLen f.frame
    let lengths : List (Nat × Nat) :=
      [(0x01, 0), (0x02, 0), (0x03, if s.ks.mgmtKey.isSome then 40 else 32), (0x04, 6), (0x05, 2), (0x06, 5), (0x07, 4),
        (0x08, 19), (0x09, 2), (0x0A, 0), (0x10, 7), (0x11, 2), (0x12, 3), (0x20, 20), (0x21, 2), (0x22, 3), (0x23, 2),
        (0x30, 28), (0x31, 25), (0x32, 2), (0x33, 2), (0x34, 4), (0x35, 3), (0x40, 41), (0x41, 1), (0x42, 47), (0x43, 2),
        (0x44, 2), (0x45, 2)]
    let known := ∃ n, (code, n) ∈ lengths
    let fits := (code, len) ∈ lengths
    let c : Command := ⟨f.lane, f.frame, s.agent.serial + 1, .begun none⟩
    let u := s.setAgent { s.agent with intake := [], serial := s.agent.serial + 1 }
    let keyCommand := code = 0x42 ∨ code = 0x40 ∨ code = 0x03
    let locked := code = 0x03 ∧ s.ks.mgmtKey.isSome = true ∧ s.mkOnce = true
    ∃ t, exec .commandBegin s = .next t ∧
      (¬known → Answered u c .badCode [] t) ∧
      (known → keyCommand → s.ks.zeroizeHeld = true → Answered u c .zeroizeHeld [] t) ∧
      (known → ¬(keyCommand ∧ s.ks.zeroizeHeld = true) → s.ks.mgmtKey = none → code ≠ 0x01 → code ≠ 0x03 →
        Answered u c .notProvisioned [] t) ∧
      (known → ¬(keyCommand ∧ s.ks.zeroizeHeld = true) →
        (s.ks.mgmtKey.isSome = true ∨ code = 0x01 ∨ code = 0x03) → ¬locked → ¬fits → Answered u c .badLength [] t) ∧
      (known → ¬(keyCommand ∧ s.ks.zeroizeHeld = true) →
        (s.ks.mgmtKey.isSome = true ∨ code = 0x01 ∨ code = 0x03) → (locked ∨ fits) →
        (∃ d, t.agent.progress = some d ∧ d.lane = f.lane ∧ d.frame = f.frame ∧ begunCommand code t = some d ∧
          (code = 0x02 → d.stage = .begun (some ([1#8, 0#8] ++
            (s.agent.counters.vals.toList.map (octetsOf 6)).flatten ++ boolOctet s.agent.counters.sat ++
            octetsOf 6 s.agent.address.toNat ++ octetsOf 2 s.agent.envelopeType.toNat)))) ∧
        (t.mergeOf f.lane).reserved = true ∧ t.agent.intake = [] ∧ Settled s t)) ∧
  (∀ s : State, s.agent.progress = none → s.ks.mgmtKey.isSome = true → s.agent.intake ≠ [] →
    (∀ f ∈ s.agent.intake, f.auth = false) → ∃ t, exec .commandBegin s = .next t ∧ Settled s t ∧
      t.agent = ({ s.agent with intake := [] } : Agent).count .authFailures s.agent.intake.length ∧
      hasFlag t.notice.flags DevFlag.authFail.bit = true) ∧
  (∀ (s : State) (f : IntakeFrame) (rest : List IntakeFrame), s.agent.progress = none → s.ks.mgmtKey.isSome = true →
    s.agent.intake = f :: rest → f.auth = false → hasFlag s.notice.flags DevFlag.authFail.bit = true →
    exec .commandBegin s =
      exec .commandBegin (s.setAgent (({ s.agent with intake := rest } : Agent).count .authFailures 1)))

/-- R156, R157, R195: the layout of a response: the command's source as its destination, the device address, the tag as
received, the control type value, the header with the code and the request tag echoed and the reply mark set, the body, the CMAC
of header and body (zero while the key is UNSET), and zero octets up to 60. -/
def Obligations.ResponseLayout : Prop :=
  ∀ (s : State) (c : Command) (st : Status) (body : Bytes), 60 ≤ c.frame.length →
    let r := responseFrame s c st body
    let t := if isTagged c.frame then 4 else 0
    let used := 38 + t + body.length
    r.length = max 60 used ∧ r.drop used = zeros (60 - used) ∧ slice r 0 6 = slice c.frame 6 6 ∧
    slice r 6 6 = macOctets s.agent.address ∧
    slice r 12 t = slice c.frame 12 t ∧ field r (12 + t) 2 = 0x9D4F ∧
    slice r (14 + t) 8 = octetsOf 1 1 ++ octetsOf 1 (ctlCode c.frame) ++ [1#8] ++ octetsOf 1 st.code ++
      octetsOf 2 (ctlTag c.frame) ++ octetsOf 2 body.length ∧
    slice r (22 + t) body.length = body ∧
    (s.ks.mgmtKey = none → slice r (22 + t + body.length) 16 = zeros 16) ∧
    (∀ k, s.ks.mgmtKey = some k →
      slice r (22 + t + body.length) 16 = cmac k (slice r (14 + t) (8 + body.length)))

/-! ## Device commands -/

/-- R166, R196, R197, R167: IDENTIFY is answered with the identity record; DEVICE_STATUS_READ asks five blocks for their parts,
the agent's own taken when the command began, and ends with the record when the last of them has been taken. The octets of the
five parts, 47, 24, 53, 2 and 12, are those of R197. -/
def Obligations.IdentityAndStatusReads : Prop :=
  (∀ (s : State) (c : Command), begunCommand 0x01 s = some c → ∃ t, exec .identify s = .next t ∧
    Answered s c .ok (octetsOf 2 0x4120 ++ [1#8, 4#8] ++ octetsOf 2 1024 ++ octetsOf 2 2304 ++ octetsOf 2 512 ++ [4#8] ++
      octetsOf 1 s.provLane.val ++ boolOctet s.mkOnce ++ boolOctet s.mkOnce ++ boolOctet s.ks.mgmtKey.isSome) t) ∧
  (∀ (s : State) (c : Command) (part : Option Bytes), begunCommand 0x02 s = some c → c.stage = .begun part →
    ∃ t, exec .deviceStatusRead s = .next t ∧
      Settled s t ∧ t.agent = { s.agent with progress := some { c with stage := .gatherStatus none none part none none } }) ∧
  (∀ (s : State) (c : Command) (k a g e n : Option Bytes) (b : StatusBlock), s.agent.progress = some c →
    c.stage = .gatherStatus k a g e n →
    let slots := fun st : SlotState => octetsOf 2 (s.ks.slots.toList.countP (fun x => x.state == st))
    let cause := fun u : UnwrapCause => match u with | .check => [1#8] | .kekAbsent => [2#8]
    let failure := match s.ks.lastFailure with
      | none => zeros 8
      | some (.data i x v, u) => [1#8] ++ cause u ++ octetsOf 2 i.val ++ octetsOf 2 x.val ++ octetsOf 2 v.toNat
      | some (.kek i, u) => [2#8] ++ cause u ++ octetsOf 2 i.val ++ zeros 4
      | some (.mk, u) => [3#8] ++ cause u ++ zeros 6
    let keyStore := boolOctet s.ks.mgmtKey.isSome ++ boolOctet s.mkOnce ++ boolOctet s.ks.zeroizeHeld ++
      boolOctet (look s.ks.keks 0).isSome ++ boolOctet (look s.ks.keks 1).isSome ++ boolOctet (look s.ks.keks 2).isSome ++
      boolOctet (look s.ks.keks 3).isSome ++ boolOctet s.ks.running.isSome ++ octetsOf 1 s.ks.jobs.length ++
      slots .free ++ slots .unwrapping ++ slots .ready ++ slots .current ++ slots .draining ++ slots .scrubbing ++ failure ++
      octetsOf 6 s.ks.successes ++ octetsOf 6 s.ks.failures ++ octetsOf 6 s.ks.setAside
    let pass := match s.age.pass with
      | none => zeros 8
      | some p => [1#8] ++ octetsOf 1 p.increment ++ octetsOf 2 p.start.val ++ octetsOf 2 p.stop.val ++
          octetsOf 2 p.position.val
    let ageTimer := boolOctet s.age.enable ++ octetsOf 2 s.age.prescale ++ octetsOf 2 s.age.count ++
      octetsOf 2 s.age.sweepStart.val ++ octetsOf 2 s.age.sweepStop.val ++ octetsOf 1 s.age.owed ++ pass ++
      octetsOf 6 s.age.lostTicks
    let agent := boolOctet s.agent.progress.isSome ++ octetsOf 1 s.agent.intake.length ++
      (s.agent.counters.vals.toList.map (octetsOf 6)).flatten ++ boolOctet s.agent.counters.sat ++
      octetsOf 6 s.agent.address.toNat ++ octetsOf 2 s.agent.envelopeType.toNat
    let default := match s.selector.default with
      | .drop => [0#8, 0#8]
      | .pass cls => [1#8] ++ octetsOf 1 cls.val
    let route := match s.notice.route with
      | none => [255#8] ++ zeros 6
      | some r => octetsOf 1 r.lane.val ++ octetsOf 6 r.address.toNat
    let notice := octetsOf 1 s.notice.flags.toNat ++ octetsOf 1 s.notice.enables.toNat ++ octetsOf 1 s.notice.owed.toNat ++
      boolOctet s.notice.master ++ route ++ octetsOf 1 s.notice.queue.length
    let k' := if b = .keyStore then k.or (some keyStore) else k
    let a' := if b = .ageTimer then a.or (some ageTimer) else a
    let g' := if b = .controlAgent then g.or (some agent) else g
    let e' := if b = .selector then e.or (some default) else e
    let n' := if b = .noticeUnit then n.or (some notice) else n
    keyStore.length = 47 ∧ ageTimer.length = 24 ∧ agent.length = 53 ∧ default.length = 2 ∧ notice.length = 12 ∧
    ∃ t, exec (.statusSnapshot b) s = .next t ∧
      (∀ k₁ a₁ g₁ e₁ n₁, k' = some k₁ → a' = some a₁ → g' = some g₁ → e' = some e₁ → n' = some n₁ →
        Answered s c .ok (k₁ ++ a₁ ++ g₁ ++ e₁ ++ n₁) t) ∧
      ((k' = none ∨ a' = none ∨ g' = none ∨ e' = none ∨ n' = none) →
        t = s.setAgent { s.agent with progress := some { c with stage := .gatherStatus k' a' g' e' n' } }))

/-- R71 to R74, R165, R168, R182: MGMT_KEY_SET stores a clear key of 32 octets while the key is UNSET; while it is SET it is
refused under ONCE, and under ROLLING queues an MK job for which the command waits, unless the job queue is full. KEK_LOAD
queues a KEK job for which the command waits, unless the job queue is full; KEK_ERASE empties its entry and touches no job and
no slot. Both refuse a KEK index above 3 with BAD_INDEX. The engine starts the job in the same event when it is IDLE (assumption
4); the checks made again at the taking are assumption 15. -/
def Obligations.KeyHolderCommands : Prop :=
  (∀ (s : State) (c : Command), begunCommand 0x03 s = some c → ∃ t, exec .mgmtKeySet s = .next t ∧
    (s.ks.zeroizeHeld = true → Answered s c .zeroizeHeld [] t) ∧
    (s.ks.zeroizeHeld = false → s.ks.mgmtKey = none → ctlBodyLen c.frame = 32 →
      Answered (s.setKs { s.ks with mgmtKey := some (keyOf (cmdBody c)) }) c .ok [] t) ∧
    (s.ks.zeroizeHeld = false → s.ks.mgmtKey.isSome = true → s.mkOnce = true → Answered s c .keyLocked [] t) ∧
    (s.ks.zeroizeHeld = false → s.ks.mgmtKey.isSome = true → s.mkOnce = false → ctlBodyLen c.frame = 40 →
      (8 ≤ s.ks.jobs.length → Answered s c .queueFull [] t) ∧
      (s.ks.jobs.length < 8 → ∃ v,
        exec .unwrapJobStart (s.setKs { s.ks with jobs := s.ks.jobs ++ [.mk (cmdBody c) c.serial] }) = .next v ∧
        Settled v t ∧ t.agent = { s.agent with progress := some { c with stage := .waitJob } }))) ∧
  (∀ (s : State) (c : Command) (i : KekIx), begunCommand 0x40 s = some c → field (cmdBody c) 0 1 = i.val →
    s.ks.zeroizeHeld = false → s.ks.mgmtKey.isSome = true → ∃ t, exec .kekLoad s = .next t ∧
      (8 ≤ s.ks.jobs.length → Answered s c .queueFull [] t) ∧
      (s.ks.jobs.length < 8 → ∃ v,
        exec .unwrapJobStart (s.setKs { s.ks with jobs := s.ks.jobs ++ [.kek i (slice (cmdBody c) 1 40) c.serial] }) = .next v ∧
        Settled v t ∧ t.agent = { s.agent with progress := some { c with stage := .waitJob } })) ∧
  (∀ (s : State) (c : Command) (i : KekIx), begunCommand 0x41 s = some c → field (cmdBody c) 0 1 = i.val →
    ∃ t, exec .kekErase s = .next t ∧
      Answered (s.setKs { s.ks with keks := put s.ks.keks i none }) c .ok
        (octetsOf 1 i.val ++ boolOctet (look s.ks.keks i).isSome) t) ∧
  (∀ (s : State) (c : Command), begunCommand 0x40 s = some c → 3 < field (cmdBody c) 0 1 →
    ∃ t, exec .kekLoad s = .next t ∧ Answered s c .badIndex [] t) ∧
  (∀ (s : State) (c : Command), begunCommand 0x41 s = some c → 3 < field (cmdBody c) 0 1 →
    ∃ t, exec .kekErase s = .next t ∧ Answered s c .badIndex [] t)

/-- R124, R137, R139, R158, R169 to R171: the device settings and what their responses carry. LANE_SET stores the campus frame
limit clamped to 1,518 to 9,600 and the class limits clamped to 16,384 to 1,048,576 and rounded down to whole KiB, and says
OK_CLAMPED when a stored value differs from the one given. -/
def Obligations.DeviceSettings : Prop :=
  (∀ (s : State) (c : Command), begunCommand 0x04 s = some c → ∃ t, exec .deviceAddressSet s = .next t ∧
    let v := field (cmdBody c) 0 6
    Answered (s.setAgent { s.agent with address := BitVec.ofNat 48 v }) c .ok (octetsOf 6 v) t) ∧
  (∀ (s : State) (c : Command), begunCommand 0x05 s = some c → ∃ t, exec .envelopeTypeSet s = .next t ∧
    let v := field (cmdBody c) 0 2
    (v = 0x8100 ∨ v ≤ 0x05FF → Answered s c .badValue [] t) ∧
    (v ≠ 0x8100 → 0x05FF < v →
      Answered (s.setAgent { s.agent with envelopeType := BitVec.ofNat 16 v }) c .ok (octetsOf 2 v) t)) ∧
  (∀ (s : State) (c : Command), begunCommand 0x06 s = some c → ∃ t, exec .timeBaseSet s = .next t ∧
    let flags := field (cmdBody c) 0 1
    let pre := field (cmdBody c) 1 2
    let cnt := field (cmdBody c) 3 2
    (3 < flags → Answered s c .badValue [] t) ∧
    (flags = 2 ∨ flags = 3 → Answered (s.setAge { s.age with prescaleDiv := 0, countDiv := 0 }) c .ok
      (boolOctet s.age.enable ++ octetsOf 2 s.age.prescale ++ octetsOf 2 s.age.count) t) ∧
    (flags ≤ 1 → Answered
      (s.setAge { s.age with
        enable := flags == 1, prescale := max 2 pre, count := max 2 cnt, prescaleDiv := 0, countDiv := 0 }) c
      (if pre < 2 ∨ cnt < 2 then .okClamped else .ok)
      (boolOctet (flags == 1) ++ octetsOf 2 (max 2 pre) ++ octetsOf 2 (max 2 cnt)) t)) ∧
  (∀ (s : State) (c : Command), begunCommand 0x07 s = some c → ∃ t, exec .sweepRangeSet s = .next t ∧
    (1024 ≤ field (cmdBody c) 0 2 ∨ 1024 ≤ field (cmdBody c) 2 2 → Answered s c .badIndex [] t) ∧
    (∀ a b : CtxIx, field (cmdBody c) 0 2 = a.val → field (cmdBody c) 2 2 = b.val →
      Answered (s.setAge { s.age with sweepStart := a, sweepStop := b }) c .ok
        (octetsOf 2 a.val ++ octetsOf 2 b.val) t)) ∧
  (∀ (s : State) (c : Command), begunCommand 0x08 s = some c →
    let b := cmdBody c
    let clampClass := fun v => max 16384 (min 1048576 v) / 1024 * 1024
    let clampFrame := fun v => max 1518 (min 9600 v)
    let fl := clampFrame (field b 1 2)
    let l0 := clampClass (field b 3 4)
    let l1 := clampClass (field b 7 4)
    let l2 := clampClass (field b 11 4)
    let l3 := clampClass (field b 15 4)
    ∃ t, exec .laneSet s = .next t ∧
      (4 ≤ field b 0 1 → Answered s c .badIndex [] t) ∧
      (∀ l : Lane, field b 0 1 = l.val → Answered
        (s.setCampus l { s.campusOf l with frameLimit := fl, limits := #v[l0, l1, l2, l3] }) c
        (if fl = field b 1 2 ∧ l0 = field b 3 4 ∧ l1 = field b 7 4 ∧ l2 = field b 11 4 ∧ l3 = field b 15 4 then .ok
          else .okClamped)
        (octetsOf 1 l.val ++ octetsOf 2 fl ++ octetsOf 4 l0 ++ octetsOf 4 l1 ++ octetsOf 4 l2 ++ octetsOf 4 l3) t))

/-- R7, R120, R132, R164, R172: LANE_COUNTERS_READ refuses a lane above 3 and a flag above 1, and asks four blocks of its lane
for their parts; each snapshot zeroes that block's counters and mark when CLEAR is set, and the last one ends the command with
the parts in order. A Return Merge whose counters were zeroed last counts the response itself when that finds the link DOWN.
That the number of frames in the control output queue counts one in transmission is the model's choice (assumption 18). -/
def Obligations.LaneCountersAreReadAndCleared : Prop :=
  (∀ (s : State) (c : Command), begunCommand 0x09 s = some c →
    (4 ≤ field (cmdBody c) 0 1 → ∃ t, exec .laneCountersRead s = .next t ∧ Answered s c .badIndex [] t) ∧
    (field (cmdBody c) 0 1 < 4 → 1 < field (cmdBody c) 1 1 →
      ∃ t, exec .laneCountersRead s = .next t ∧ Answered s c .badValue [] t)) ∧
  (∀ (s : State) (c : Command) (l : Lane), begunCommand 0x09 s = some c → field (cmdBody c) 0 1 = l.val →
    field (cmdBody c) 1 1 ≤ 1 → ∃ t, exec .laneCountersRead s = .next t ∧
      Settled s t ∧ t.agent = { s.agent with
        progress := some { c with stage := .gatherLane l (field (cmdBody c) 1 1 == 1) none none none none } }) ∧
  (∀ (s : State) (c : Command) (l : Lane) (clear : Bool) (r p q m : Option Bytes) (b : LaneBlock),
    s.agent.progress = some c → c.stage = .gatherLane l clear r p q m →
    (b = .trunkReceive → r = none) → (b = .cipherLane → p = none) → (b = .campusQueue → q = none) →
    (b = .returnMerge → m = none) →
    let x := s.rxOf l
    let y := s.cipherOf l
    let z := s.campusOf l
    let g := s.mergeOf l
    let rx := (x.counters.vals.toList.map (octetsOf 6)).flatten ++ boolOctet x.counters.sat ++ octetsOf 4 (octetCount x.buffer)
    let cipher := octetsOf 6 (look y.flushDrops.vals 0) ++ boolOctet y.flushDrops.sat ++ octetsOf 1 y.recs.length
    let campus := (z.counters.vals.toList.map (octetsOf 6)).flatten ++ boolOctet z.counters.sat ++
      octetsOf 4 (classOccupancy z 0) ++ octetsOf 4 (classOccupancy z 1) ++ octetsOf 4 (classOccupancy z 2) ++
      octetsOf 4 (classOccupancy z 3) ++ octetsOf 4 (totalOccupancy z) ++ octetsOf 2 (look z.queues 0).length ++
      octetsOf 2 (look z.queues 1).length ++ octetsOf 2 (look z.queues 2).length ++ octetsOf 2 (look z.queues 3).length ++
      boolOctet z.sending.isSome ++ octetsOf 4 (look z.limits 0) ++ octetsOf 4 (look z.limits 1) ++
      octetsOf 4 (look z.limits 2) ++ octetsOf 4 (look z.limits 3) ++ octetsOf 2 z.frameLimit ++ boolOctet z.linkUp
    let merge := (g.counters.vals.toList.map (octetsOf 6)).flatten ++ boolOctet g.counters.sat ++
      octetsOf 4 (relayOccupancy g) ++ octetsOf 1 (controlOrigin g).length ++ boolOctet g.reserved ++ boolOctet g.linkUp
    let r' := if b = .trunkReceive then some rx else r
    let p' := if b = .cipherLane then some cipher else p
    let q' := if b = .campusQueue then some campus else q
    let m' := if b = .returnMerge then some merge else m
    let u := if clear then
        match b with
        | .trunkReceive => s.setRx l { s.rxOf l with counters := CounterSet.zero 11 }
        | .cipherLane => s.setCipher l { s.cipherOf l with flushDrops := CounterSet.zero 1 }
        | .campusQueue => s.setCampus l { s.campusOf l with counters := CounterSet.zero 8 }
        | .returnMerge => s.setMerge l { s.mergeOf l with counters := CounterSet.zero 6 }
      else s
    rx.length = 71 ∧ cipher.length = 8 ∧ campus.length = 97 ∧ merge.length = 44 ∧
    ∃ t, exec (.laneSnapshot b) s = .next t ∧
      (b = .returnMerge → clear = true → ((s.mergeOf l).linkUp = true ∨ r' = none ∨ p' = none ∨ q' = none →
        (t.mergeOf l).counters = CounterSet.zero 6)) ∧
      (b = .returnMerge → clear = true → s.agent.intake = [] → (s.mergeOf l).linkUp = false →
        (∀ r₁ p₁ q₁, r' = some r₁ → p' = some p₁ → q' = some q₁ → (t.mergeOf l).counters =
          if l = c.lane then (CounterSet.zero 6).bump MergeCounter.controlDiscards.ix 1 else CounterSet.zero 6)) ∧
      (∀ r₁ p₁ q₁ m₁, r' = some r₁ → p' = some p₁ → q' = some q₁ → m' = some m₁ →
        Answered u c .ok (octetsOf 1 l.val ++ r₁ ++ p₁ ++ q₁ ++ m₁) t) ∧
      ((r' = none ∨ p' = none ∨ q' = none ∨ m' = none) →
        t = u.setAgent { s.agent with progress := some { c with stage := .gatherLane l clear r' p' q' m' } }))

/-- R39, R153, R175, R176, R186: the notice settings, and ATTENTION_CLEAR, which clears the flags named, returns their values
from before, and touches nothing else. AUTH_FAIL alone may rise again in the same event, by the discard of an unauthenticated
frame that waits in intake. -/
def Obligations.NoticeCommands : Prop :=
  (∀ (s : State) (c : Command), begunCommand 0x10 s = some c → ∃ t, exec .noticeRouteSet s = .next t ∧
    let v := field (cmdBody c) 0 1
    (v = 255 → Answered (s.setNotice { s.notice with route := none }) c .ok (octetsOf 1 255 ++ zeros 6) t) ∧
    (v ≠ 255 → 4 ≤ v → Answered s c .badIndex [] t) ∧
    (∀ l : Lane, v = l.val → let a := BitVec.ofNat 48 (field (cmdBody c) 1 6)
      Answered (s.setNotice { s.notice with route := some ⟨l, a⟩ }) c .ok (octetsOf 1 l.val ++ macOctets a) t)) ∧
  (∀ (s : State) (c : Command), begunCommand 0x11 s = some c → ∃ t, exec .noticeEnableSet s = .next t ∧
    let m := field (cmdBody c) 0 1
    let e := field (cmdBody c) 1 1
    (1 < m ∨ 63 < e → Answered s c .badValue [] t) ∧
    (m ≤ 1 → e ≤ 63 → Answered (s.setNotice { s.notice with master := m == 1, enables := BitVec.ofNat 6 e }) c .ok
      (octetsOf 1 m ++ octetsOf 1 e) t)) ∧
  (∀ (s : State) (c : Command), begunCommand 0x12 s = some c → ∃ t, exec .attentionClear s = .next t ∧
    let target := field (cmdBody c) 0 2
    let mask := field (cmdBody c) 2 1
    (∀ x : CtxIx, target = x.val → Answered
      (s.setCtx x { s.ctx x with flags := (s.ctx x).flags &&& ~~~ BitVec.ofNat 8 mask }) c .ok
      (octetsOf 2 x.val ++ octetsOf 2 (s.ctx x).generation.toNat ++
        octetsOf 1 ((s.ctx x).flags &&& BitVec.ofNat 8 mask).toNat) t) ∧
    (target = 65535 → mask ≤ 63 → let left := s.notice.flags &&& ~~~ BitVec.ofNat 6 mask
      Answered (s.setNotice { s.notice with flags := left }) c .ok
        (octetsOf 2 65535 ++ octetsOf 2 0 ++ octetsOf 1 (s.notice.flags &&& BitVec.ofNat 6 mask).toNat) t ∧
      (∀ f : DevFlag, f ≠ .authFail → hasFlag t.notice.flags f.bit = hasFlag left f.bit) ∧
      ((∀ x ∈ s.agent.intake, x.auth = true) → t.notice.flags = left)) ∧
    (target = 65535 → 63 < mask → Answered s c .badValue [] t) ∧
    (1024 ≤ target → target ≠ 65535 → Answered s c .badIndex [] t))

/-! ## Selector commands -/

/-- R9, R14, R16, R20, R165, R177, R178: an accepted SELECTOR_WRITE replaces every field of its entry, clamps the prefix length
to 48, zeroes the hit counter and its mark, and moves no other entry; its response carries the 20 octets as stored.
SELECTOR_READ returns the entry in the layout of R177 with its hit counter and mark, and with CLEAR zeroes both in the same
event and nothing else. An entry index above 511, also in SELECTOR_INVALIDATE, and a PROTECT argument above 1,023 are refused
with BAD_INDEX; with the indexes in range, every other value outside its column of R177 is refused with BAD_VALUE. -/
def Obligations.SelectorWriteAndRead : Prop :=
  let layout := fun (i : SelIx) (e : SelEntry) =>
    octetsOf 2 i.val ++ [if e.valid then 1#8 else 0#8] ++ octetsOf 1 e.lanes.toNat ++
      octetsOf 2 (match e.tagMatch with | .any => 0 | .untagged => 65535 | .vlan v => v.toNat) ++
      octetsOf 1 (match e.priority with | none => 255 | some p => p.toNat) ++ octetsOf 6 e.address.toNat ++
      octetsOf 1 e.prefixLen ++ [if e.typeMatch then 1#8 else 0#8] ++ octetsOf 2 e.etherType.toNat ++
      (match e.action with
       | .drop => [0#8, 0#8, 0#8]
       | .pass k => [1#8] ++ octetsOf 2 k.val
       | .protect x => [2#8] ++ octetsOf 2 x.val)
  (∀ i e, (layout i e).length = 20) ∧
  (∀ (s : State) (c : Command) (i : SelIx) (e : SelEntry), begunCommand 0x20 s = some c →
    let b := cmdBody c
    field b 0 2 = i.val →
    (field b 2 1 = if e.valid then 1 else 0) → field b 3 1 = e.lanes.toNat → e.lanes ≠ 0#4 →
    (e.tagMatch = .any ∧ field b 4 2 = 0 ∨ e.tagMatch = .untagged ∧ field b 4 2 = 65535 ∨
      ∃ v : BitVec 12, e.tagMatch = .vlan v ∧ 1 ≤ v.toNat ∧ v.toNat ≤ 4094 ∧ field b 4 2 = v.toNat) →
    (e.priority = none ∧ field b 6 1 = 255 ∨ ∃ p : BitVec 3, e.priority = some p ∧ field b 6 1 = p.toNat) →
    field b 7 6 = e.address.toNat → e.prefixLen = min 48 (field b 13 1) →
    (field b 14 1 = if e.typeMatch then 1 else 0) → field b 15 2 = e.etherType.toNat →
    (e.action = .drop ∧ field b 17 1 = 0 ∧ field b 18 2 = 0 ∨
      (∃ k : Cls, e.action = .pass k ∧ field b 17 1 = 1 ∧ field b 18 2 = k.val) ∨
      ∃ x : CtxIx, e.action = .protect x ∧ field b 17 1 = 2 ∧ field b 18 2 = x.val) →
    e.hits = CounterSet.zero 1 →
    ∃ t, exec .selectorWrite s = .next t ∧
      Answered (s.setEntry i e) c (if 48 < field b 13 1 then .okClamped else .ok) (layout i e) t) ∧
  (∀ (s : State) (c : Command) (i : SelIx), begunCommand 0x22 s = some c → field (cmdBody c) 0 2 = i.val →
    ∃ t, exec .selectorRead s = .next t ∧
      (1 < field (cmdBody c) 2 1 → Answered s c .badValue [] t) ∧
      (field (cmdBody c) 2 1 ≤ 1 → Answered
        (if field (cmdBody c) 2 1 = 1 then s.setEntry i { s.entry i with hits := CounterSet.zero 1 } else s) c .ok
        (layout i (s.entry i) ++ octetsOf 6 (look (s.entry i).hits.vals 0) ++ boolOctet (s.entry i).hits.sat) t)) ∧
  (∀ (s : State) (c : Command), begunCommand 0x20 s = some c →
    let b := cmdBody c
    let badIndex := 511 < field b 0 2 ∨ (field b 17 1 = 2 ∧ 1023 < field b 18 2)
    let badAction := 2 < field b 17 1 ∨ (field b 17 1 = 0 ∧ field b 18 2 ≠ 0) ∨ (field b 17 1 = 1 ∧ 3 < field b 18 2)
    let badValue := 1 < field b 2 1 ∨ field b 3 1 = 0 ∨ 15 < field b 3 1 ∨ (4094 < field b 4 2 ∧ field b 4 2 ≠ 65535) ∨
      (7 < field b 6 1 ∧ field b 6 1 ≠ 255) ∨ 1 < field b 14 1 ∨ badAction
    ∃ t, exec .selectorWrite s = .next t ∧ (badIndex → Answered s c .badIndex [] t) ∧
      (¬badIndex → badValue → Answered s c .badValue [] t)) ∧
  (∀ (s : State) (c : Command), begunCommand 0x21 s = some c → 511 < field (cmdBody c) 0 2 →
    ∃ t, exec .selectorInvalidate s = .next t ∧ Answered s c .badIndex [] t) ∧
  (∀ (s : State) (c : Command), begunCommand 0x22 s = some c → 511 < field (cmdBody c) 0 2 →
    ∃ t, exec .selectorRead s = .next t ∧ Answered s c .badIndex [] t)

/-- R15: SELECTOR_INVALIDATE sets the entry's valid field to no and keeps the rest, which SELECTOR_READ still returns; an entry
that is already invalid is left as it is, and the command is accepted. A SELECTOR_WRITE whose valid field is yes makes the entry
valid again, with a zeroed hit counter. -/
def Obligations.SelectorInvalidateKeepsTheRest : Prop :=
  (∀ (s : State) (c : Command) (i : SelIx), begunCommand 0x21 s = some c → field (cmdBody c) 0 2 = i.val →
    ∃ t, exec .selectorInvalidate s = .next t ∧
      Answered (s.setEntry i { s.entry i with valid := false }) c .ok (octetsOf 2 i.val ++ boolOctet (s.entry i).valid) t) ∧
  (∀ (s : State) (c : Command) (i : SelIx), begunCommand 0x21 s = some c → field (cmdBody c) 0 2 = i.val →
    (s.entry i).valid = false → ∃ t, exec .selectorInvalidate s = .next t ∧ t.selector = s.selector) ∧
  (∀ (s : State) (c : Command) (i : SelIx), begunCommand 0x22 s = some c → field (cmdBody c) 0 2 = i.val →
    field (cmdBody c) 2 1 = 0 → ∃ t, exec .selectorRead s = .next t ∧ t.selector = s.selector ∧
      Answered s c .ok (entryOctets i (s.entry i) ++ counterOctets (look (s.entry i).hits.vals 0) ++
        boolOctet (s.entry i).hits.sat) t) ∧
  (∀ (s t : State) (c : Command) (i : SelIx), begunCommand 0x20 s = some c → field (cmdBody c) 0 2 = i.val →
    field (cmdBody c) 2 1 = 1 → exec .selectorWrite s = .next t → t.selector ≠ s.selector →
    (t.entry i).valid = true ∧ (t.entry i).hits = CounterSet.zero 1)

/-! ## Context commands -/

/-- R27, R49, R50, R165, R179: an accepted CONTEXT_DEFINE makes an UNDEFINED context KEYLESS with the configuration of its body,
the thresholds clamped hard limits first, and everything else at its KEYLESS value; the generation and the owed marks stay. On a
defined context it is refused with CONTEXT_BUSY, and before that a context index above 1,023 with BAD_INDEX, and a class,
options, condition code, switch group or initial key phase outside its range with BAD_VALUE. -/
def Obligations.ContextDefineWritesTheRecord : Prop :=
  (∀ (s : State) (c : Command) (x : CtxIx), begunCommand 0x30 s = some c →
      let b := cmdBody c
      field b 0 2 = x.val → field b 6 1 ≤ 3 → field b 7 1 ≤ 7 → field b 8 1 ≤ 3 → field b 9 1 ≤ 15 → field b 26 1 ≤ 3 →
      let blockHard := max 1 (field b 18 4)
      let ageHard := max 1 (field b 24 2)
      let given : Thresholds := ⟨field b 10 4, field b 14 4, field b 18 4, field b 22 2, field b 24 2⟩
      let stored : Thresholds := ⟨max 1 (field b 10 4), min (max 1 (field b 14 4)) blockHard, blockHard,
        min (max 1 (field b 22 2)) ageHard, ageHard⟩
      ∃ t, exec .contextDefine s = .next t ∧
        ((s.ctx x).state ≠ .undefined → Answered s c .contextBusy [] t) ∧
        ((s.ctx x).state = .undefined → ∃ r : Ctx,
          r.state = .keyless ∧ r.generation = (s.ctx x).generation ∧ r.tag.toNat = field b 2 4 ∧ r.cls.val = field b 6 1 ∧
          r.options.code = field b 7 1 ∧ r.condition.val = field b 8 1 ∧ r.group.val = field b 9 1 ∧
          r.thresholds = stored ∧ r.initialPhase.toNat = field b 26 1 ∧ r.phase = r.initialPhase ∧ r.current = none ∧
          r.next = none ∧ r.nextPn = 0 ∧ r.blocks = 0 ∧ r.age = 0 ∧ r.softReached = false ∧ r.switchPending = false ∧
          r.flags = 0#8 ∧ r.enables.toNat = field b 27 1 ∧ r.owed = (s.ctx x).owed ∧ r.counters = CounterSet.zero 6 ∧
          Answered (s.setCtx x r) c (if stored = given then .ok else .okClamped)
            (octetsOf 2 x.val ++ octetsOf 2 r.generation.toNat ++ [1#8] ++ stored.octets) t)) ∧
  (∀ (s : State) (c : Command), begunCommand 0x30 s = some c →
    let b := cmdBody c
    ∃ t, exec .contextDefine s = .next t ∧ (1023 < field b 0 2 → Answered s c .badIndex [] t) ∧
      (field b 0 2 ≤ 1023 → 3 < field b 6 1 ∨ 7 < field b 7 1 ∨ 3 < field b 8 1 ∨ 15 < field b 9 1 ∨ 3 < field b 26 1 →
        Answered s c .badValue [] t))

/-- R29, R30, R49, R50, R52, R53, R62, R88, R165, R179, R187, R188: an accepted CONTEXT_MODIFY stores its values; on an ACTIVE
context it then takes a soft crossing when a soft condition of the set stands, and a hard event when a hard limit of the set
stands and the crossing has not switched. In KEYLESS and HALTED it stores alone. A switch raises SWITCHED, entry to HALTED
raises HALTED and KEY_WANTED, and a crossing without a next slot raises KEY_WANTED; the rises are handled at the Notice Unit,
and the slots of an ended tenure move as R29 and R89 say. The response is built after the re-evaluation. A context index above
1,023 is refused with BAD_INDEX, and a class, condition code or switch group outside its range with BAD_VALUE. A slot is zero
from the start of its scrub, which is the model's choice (assumption 31). -/
def Obligations.ContextModifyReevaluates : Prop :=
  (∀ (s : State) (c : Command) (x : CtxIx), begunCommand 0x31 s = some c →
      let b := cmdBody c
      let r := s.ctx x
      field b 0 2 = x.val → field b 6 1 ≤ 3 → field b 7 1 ≤ 3 → field b 8 1 ≤ 15 →
      let blockHard := max 1 (field b 17 4)
      let ageHard := max 1 (field b 23 2)
      let given : Thresholds := ⟨field b 9 4, field b 13 4, field b 17 4, field b 21 2, field b 23 2⟩
      let stored : Thresholds := ⟨max 1 (field b 9 4), min (max 1 (field b 13 4)) blockHard, blockHard,
        min (max 1 (field b 21 2)) ageHard, ageHard⟩
      let blocksIn := field b 7 1 = 1 ∨ field b 7 1 = 3
      let ageIn := field b 7 1 = 2 ∨ field b 7 1 = 3
      let soft := stored.pnSoft ≤ r.nextPn - 1 ∨ (blocksIn ∧ stored.blockSoft * 65536 ≤ r.blocks) ∨
        (ageIn ∧ stored.ageSoft ≤ r.age)
      let hard := (blocksIn ∧ blockHard * 65536 < r.blocks) ∨ (ageIn ∧ ageHard ≤ r.age)
      let rolls := r.softReached = false ∧ soft ∧ r.options.autoRoll = true ∧ nextReady r = true
      ∃ t, exec .contextModify s = .next t ∧ RisesQueued x s t ∧
        (r.state = .undefined → Answered s c .contextUndefined [] t) ∧
        (r.state ≠ .undefined → (t.ctx x).thresholds = stored ∧ (t.ctx x).condition.val = field b 7 1 ∧
          (t.ctx x).tag.toNat = field b 2 4 ∧ (t.ctx x).cls.val = field b 6 1 ∧ (t.ctx x).group.val = field b 8 1 ∧
          (t.ctx x).options = r.options ∧ (t.ctx x).initialPhase = r.initialPhase ∧ (t.ctx x).counters = r.counters ∧
          (t.ctx x).enables = r.enables ∧ (t.ctx x).generation = r.generation ∧ (∀ y, y ≠ x →
            { t.ctx y with owed := 0#8 } = { s.ctx y with owed := 0#8 })) ∧
        (r.state = .keyless ∨ r.state = .halted → ∃ u : Ctx, u.thresholds = stored ∧
          { u with tag := r.tag, cls := r.cls, condition := r.condition, group := r.group, thresholds := r.thresholds } = r ∧
          Answered (s.setCtx x u) c (if stored = given then .ok else .okClamped)
            (octetsOf 2 x.val ++ octetsOf 2 r.generation.toNat ++ octetsOf 1 r.state.code ++ octetsOf 1 r.phase.toNat ++
              octetsOf 4 r.nextPn ++ stored.octets) t) ∧
        (r.state = .active → ∃ u : State, Settled { s with ctxs := u.ctxs, ks := u.ks } u ∧
          Answered u c (if stored = given then .ok else .okClamped)
            (octetsOf 2 x.val ++ octetsOf 2 r.generation.toNat ++ octetsOf 1 (t.ctx x).state.code ++
              octetsOf 1 (t.ctx x).phase.toNat ++ octetsOf 4 (t.ctx x).nextPn ++ stored.octets) t) ∧
        (r.state = .active → (rolls ∨ (hard ∧ nextReady r = true)) → ∀ n, r.next = some (n, .ready) →
          (t.ctx x).state = .active ∧ (t.ctx x).current = some n ∧ (t.ctx x).next = none ∧ (t.ctx x).nextPn = 1 ∧
          (t.ctx x).blocks = 0 ∧ (t.ctx x).age = 0 ∧ (t.ctx x).phase = r.phase + 1#2 ∧ (t.ctx x).softReached = false ∧
          (t.ctx x).switchPending = false ∧ (t.ctx x).flags = r.flags ||| 0x20#8 ∧ TenureEnded x (some n) s t) ∧
        (r.state = .active → hard → nextReady r = false → TenureEnded x none s t ∧
          (t.ctx x).state = .halted ∧ (t.ctx x).current = none ∧
          (t.ctx x).next = r.next ∧ (t.ctx x).nextPn = 0 ∧ (t.ctx x).blocks = r.blocks ∧ (t.ctx x).age = r.age ∧
          (t.ctx x).phase = r.phase ∧ ((t.ctx x).softReached = true ↔ r.softReached = true ∨ soft) ∧
          (t.ctx x).flags = r.flags ||| 0x90#8) ∧
        (r.state = .active → ¬rolls → ¬hard → (t.ctx x).state = .active ∧ (t.ctx x).current = r.current ∧
          (t.ctx x).next = r.next ∧ (t.ctx x).nextPn = r.nextPn ∧ (t.ctx x).blocks = r.blocks ∧ (t.ctx x).age = r.age ∧
          (t.ctx x).phase = r.phase ∧ t.ks = s.ks ∧ ((t.ctx x).softReached = true ↔ r.softReached = true ∨ soft) ∧
          ((t.ctx x).switchPending = true ↔
            r.switchPending = true ∨ (r.softReached = false ∧ soft ∧ r.options.autoRoll = true)) ∧
          (r.softReached = false → soft → r.next = none → (t.ctx x).flags = r.flags ||| 0x80#8) ∧
          (r.softReached = true ∨ ¬soft ∨ r.next ≠ none → (t.ctx x).flags = r.flags))) ∧
  (∀ (s : State) (c : Command), begunCommand 0x31 s = some c →
    let b := cmdBody c
    ∃ t, exec .contextModify s = .next t ∧ (1023 < field b 0 2 → Answered s c .badIndex [] t) ∧
      (field b 0 2 ≤ 1023 → 3 < field b 6 1 ∨ 3 < field b 7 1 ∨ 15 < field b 8 1 → Answered s c .badValue [] t))

/-- R32, R69, R70, R165, R180: an accepted CONTEXT_CLEAR releases the current slot and gives up a READY next slot, advances the
generation, and leaves an UNDEFINED record with its configuration and owed marks. It is answered OK with the index, the new
generation and the state UNDEFINED. On an UNDEFINED context it is refused, and a context index above 1,023 is refused with
BAD_INDEX. A slot is zero from the start of its scrub, which is the model's choice (assumption 31). -/
def Obligations.ContextClearReleasesItsSlots : Prop :=
  (∀ (s : State) (c : Command) (x : CtxIx), begunCommand 0x32 s = some c → field (cmdBody c) 0 2 = x.val →
      let r := s.ctx x
      let r' := { r with state := .undefined, generation := r.generation + 1#16, current := none, next := none, phase := 0#2,
                         nextPn := 0, blocks := 0, age := 0, softReached := false, switchPending := false,
                         counters := CounterSet.zero 6, flags := 0#8, enables := 0#8 }
      ∃ t, exec .contextClear s = .next t ∧
        (r.state = .undefined → Answered s c .contextUndefined [] t) ∧
        (r.state ≠ .undefined →
          { t.ctx x with owed := r.owed } = r' ∧
          Answered ((s.setKs { s.ks with slots := t.ks.slots }).setCtx x r') c .ok
            (octetsOf 2 x.val ++ octetsOf 2 (r.generation + 1#16).toNat ++ [0#8]) t ∧
          (∀ y, y ≠ x → { t.ctx y with owed := 0#8 } = { s.ctx y with owed := 0#8 }) ∧
          (∀ k, some k ≠ r.current → some k ≠ r.next.map Prod.fst → t.slot k = s.slot k) ∧
          (∀ k, r.current = some k → r.next.map Prod.fst ≠ some k → (s.slot k).owner = some (x, r.generation) →
            (s.slot k).state = .current →
            t.slot k = if (s.slot k).inFlight = 0 then startScrub (s.slot k) else { s.slot k with state := .draining }) ∧
          (∀ k n, r.next = some (k, n) → r.current ≠ some k → (s.slot k).owner = some (x, r.generation) →
            ((s.slot k).state = .ready → t.slot k = startScrub (s.slot k)) ∧
            ((s.slot k).state = .unwrapping → t.slot k = s.slot k)))) ∧
  (∀ (s : State) (c : Command), begunCommand 0x32 s = some c → 1023 < field (cmdBody c) 0 2 →
    ∃ t, exec .contextClear s = .next t ∧ Answered s c .badIndex [] t)

/-- R31, R37, R38, R165, R180, R181: CONTEXT_READ returns the 52 octets of the record, laid out as R180 says, and changes
nothing; CONTEXT_COUNTERS_READ returns the counters and the mark, and with CLEAR zeroes both and nothing else; CONTEXT_FLAG
sets, clears, toggles or tests one option or one attention enable of a defined context, and returns its values before and after.
All three refuse a context index above 1,023 with BAD_INDEX. -/
def Obligations.ContextReadsAndFlag : Prop :=
  (∀ (s : State) (c : Command) (x : CtxIx), begunCommand 0x33 s = some c → field (cmdBody c) 0 2 = x.val →
    let r := s.ctx x
    let body := octetsOf 2 x.val ++
      octetsOf 1 (match r.state with | .undefined => 0 | .keyless => 1 | .active => 2 | .halted => 3) ++
      octetsOf 2 r.generation.toNat ++ octetsOf 4 r.tag.toNat ++ octetsOf 1 r.cls.val ++
      octetsOf 1 ((if r.options.originLabel then 1 else 0) + (if r.options.clearTag then 2 else 0) +
        (if r.options.autoRoll then 4 else 0)) ++
      octetsOf 1 r.condition.val ++ octetsOf 1 r.group.val ++ octetsOf 4 r.thresholds.pnSoft ++
      octetsOf 4 r.thresholds.blockSoft ++ octetsOf 4 r.thresholds.blockHard ++ octetsOf 2 r.thresholds.ageSoft ++
      octetsOf 2 r.thresholds.ageHard ++ octetsOf 1 r.initialPhase.toNat ++
      octetsOf 2 (match r.current with | none => 65535 | some k => k.val) ++
      octetsOf 2 (match r.next with | none => 65535 | some (k, _) => k.val) ++
      octetsOf 1 (match r.next with | none => 0 | some (_, .pending) => 1 | some (_, .ready) => 2) ++
      octetsOf 1 r.phase.toNat ++ octetsOf 4 r.nextPn ++ octetsOf 6 r.blocks ++ octetsOf 2 r.age ++
      octetsOf 1 ((if r.softReached then 1 else 0) + (if r.switchPending then 2 else 0)) ++ octetsOf 1 r.flags.toNat ++
      octetsOf 1 r.enables.toNat ++ octetsOf 1 r.owed.toNat
    body.length = 52 ∧ ∃ t, exec .contextRead s = .next t ∧ Answered s c .ok body t) ∧
  (∀ (s : State) (c : Command) (x : CtxIx), begunCommand 0x35 s = some c → field (cmdBody c) 0 2 = x.val →
    let r := s.ctx x
    ∃ t, exec .contextCountersRead s = .next t ∧
      (1 < field (cmdBody c) 2 1 → Answered s c .badValue [] t) ∧
      (field (cmdBody c) 2 1 ≤ 1 → Answered
        (if field (cmdBody c) 2 1 = 1 then s.setCtx x { r with counters := CounterSet.zero 6 } else s) c .ok
        (octetsOf 2 x.val ++ octetsOf 2 r.generation.toNat ++ octetsOf 1 r.state.code ++ r.counters.octets ++
          boolOctet r.counters.sat) t)) ∧
  (∀ (s : State) (c : Command) (x : CtxIx), begunCommand 0x34 s = some c → field (cmdBody c) 0 2 = x.val →
    let r := s.ctx x
    let n := field (cmdBody c) 2 1
    let op := field (cmdBody c) 3 1
    let v := flagValue r n
    let v' := if op = 0 then true else if op = 1 then false else if op = 2 then !v else v
    ∃ t, exec .contextFlag s = .next t ∧
      (10 < n ∨ 3 < op → Answered s c .badValue [] t) ∧
      (n ≤ 10 → op ≤ 3 → r.state = .undefined → Answered s c .contextUndefined [] t) ∧
      (n ≤ 10 → op ≤ 3 → r.state ≠ .undefined → ∃ u : Ctx, flagValue u n = v' ∧
        (∀ m, m ≤ 10 → m ≠ n → flagValue u m = flagValue r m) ∧
        { u with options := r.options, enables := r.enables } = r ∧
        Answered (s.setCtx x u) c .ok
          (octetsOf 2 x.val ++ octetsOf 2 r.generation.toNat ++ octetsOf 1 n ++ boolOctet v ++ boolOctet v') t)) ∧
  (∀ (s : State) (c : Command), begunCommand 0x33 s = some c → 1023 < field (cmdBody c) 0 2 →
    ∃ t, exec .contextRead s = .next t ∧ Answered s c .badIndex [] t) ∧
  (∀ (s : State) (c : Command), begunCommand 0x35 s = some c → 1023 < field (cmdBody c) 0 2 →
    ∃ t, exec .contextCountersRead s = .next t ∧ Answered s c .badIndex [] t) ∧
  (∀ (s : State) (c : Command), begunCommand 0x34 s = some c → 1023 < field (cmdBody c) 0 2 →
    ∃ t, exec .contextFlag s = .next t ∧ Answered s c .badIndex [] t)

/-! ## Key commands -/

/-- R66, R67, R165, R183: KEY_LOAD refuses a context index above 1,023 and a KEK index above 3 with BAD_INDEX, is refused by the
first of its checks that fails, and otherwise reserves the lowest-numbered FREE slot under the context's generation, makes it
the PENDING next slot, lowers the FREE count, raises POOL_LOW below 16, and queues a DATA job, which an IDLE engine starts. The
start of the job in the same event is assumption 4. -/
def Obligations.KeyLoadReservesTheLowestFreeSlot : Prop :=
  (∀ (s : State) (c : Command) (x : CtxIx) (kek : KekIx), begunCommand 0x42 s = some c → field (cmdBody c) 0 2 = x.val →
      field (cmdBody c) 2 1 = kek.val →
      let r := s.ctx x
      ∃ t, exec .keyLoad s = .next t ∧
        (s.ks.zeroizeHeld = true → Answered s c .zeroizeHeld [] t) ∧
        (s.ks.zeroizeHeld = false → r.state = .undefined → Answered s c .contextUndefined [] t) ∧
        (s.ks.zeroizeHeld = false → r.state ≠ .undefined → r.next ≠ none → Answered s c .nextOccupied [] t) ∧
        (s.ks.zeroizeHeld = false → r.state ≠ .undefined → r.next = none → 8 ≤ s.ks.jobs.length →
          Answered s c .queueFull [] t) ∧
        (s.ks.zeroizeHeld = false → r.state ≠ .undefined → r.next = none → s.ks.jobs.length < 8 →
          (∀ k, (s.slot k).state ≠ .free) → Answered s c .noSlot [] t) ∧
        (∀ k, s.ks.zeroizeHeld = false → r.state ≠ .undefined → r.next = none → s.ks.jobs.length < 8 →
          (s.slot k).state = .free → (∀ j, j.val < k.val → (s.slot j).state ≠ .free) →
          ∃ v, exec .unwrapJobStart
              (((s.setSlot k ⟨.unwrapping, some (x, r.generation), BitVec.ofNat 32 (field (cmdBody c) 3 4), kek, 0, 0#256⟩).setKs
                { (s.setSlot k ⟨.unwrapping, some (x, r.generation), BitVec.ofNat 32 (field (cmdBody c) 3 4), kek, 0,
                    0#256⟩).ks with
                  freeSlots := s.ks.freeSlots - 1,
                  jobs := s.ks.jobs ++ [.data k x r.generation (slice (cmdBody c) 7 40)] }).setCtx x
                { r with next := some (k, .pending) }) = .next v ∧
            Settled v t ∧
            ((s.mergeOf c.lane).linkUp = true →
              (⟨responseFrame s c .accepted (octetsOf 2 k.val ++ octetsOf 2 r.generation.toNat), false⟩ : ControlFrame) ∈
                controlOrigin (t.mergeOf c.lane)) ∧
            (s.ks.freeSlots ≤ 16 → hasFlag t.notice.flags DevFlag.poolLow.bit = true))) ∧
  (∀ (s : State) (c : Command), begunCommand 0x42 s = some c → 1023 < field (cmdBody c) 0 2 ∨ 3 < field (cmdBody c) 2 1 →
    ∃ t, exec .keyLoad s = .next t ∧ Answered s c .badIndex [] t)

/-- R69, R70, R89, R96, R99, R165, R183, R184, R187, R188: NEXT_DISCARD gives up the next slot, keeps the rest of the record,
and is answered OK with the next condition that it found and the key-use marks; SWITCH_REQUEST switches to a READY next slot at
once, answered OK with the 12 octets of the new tenure, and leaves the switch pending otherwise. A switch makes the new slot
CURRENT and releases the old one, and its rises are handled at the Notice Unit. Both are refused on an UNDEFINED context, and
with a context index above 1,023. A slot is zero from the start of its scrub, which is the model's choice (assumption 31). -/
def Obligations.NextDiscardAndSwitchRequest : Prop :=
  (∀ (s : State) (c : Command) (x : CtxIx), begunCommand 0x43 s = some c → field (cmdBody c) 0 2 = x.val →
    let r := s.ctx x
    ∃ t, exec .nextDiscard s = .next t ∧
      (r.state = .undefined → Answered s c .contextUndefined [] t) ∧
      (r.state ≠ .undefined → { t.ctx x with owed := r.owed } = { r with next := none } ∧
        Answered ((s.setKs { s.ks with slots := t.ks.slots }).setCtx x { r with next := none }) c .ok
          ([match r.next with | none => 0#8 | some (_, .pending) => 1#8 | some (_, .ready) => 2#8] ++
            octetsOf 1 ((if r.softReached then 1 else 0) + (if r.switchPending then 2 else 0))) t ∧
        (∀ k, r.next.map Prod.fst ≠ some k → t.slot k = s.slot k) ∧
        (∀ k n, r.next = some (k, n) → (s.slot k).owner = some (x, r.generation) →
          ((s.slot k).state = .ready → t.slot k = startScrub (s.slot k)) ∧
          ((s.slot k).state = .unwrapping → t.slot k = s.slot k)))) ∧
  (∀ (s : State) (c : Command) (x : CtxIx), begunCommand 0x44 s = some c → field (cmdBody c) 0 2 = x.val →
    let r := s.ctx x
    ∃ t, exec .switchRequest s = .next t ∧ RisesQueued x s t ∧
      (r.state = .undefined → Answered s c .contextUndefined [] t) ∧
      (r.state ≠ .undefined → nextReady r = false →
        Answered (s.setCtx x { r with switchPending := true }) c .okPending
          (octetsOf 2 x.val ++ octetsOf 2 r.generation.toNat ++ octetsOf 1 r.state.code ++ octetsOf 1 r.phase.toNat ++
            octetsOf 4 r.nextPn ++ octetsOf 1 ((if r.softReached then 1 else 0) + 2) ++ octetsOf 1 (nextCode r.next)) t) ∧
      (∀ n, r.state ≠ .undefined → r.next = some (n, .ready) →
        let phase := if r.state = .keyless then r.initialPhase else r.phase + 1#2
        Answered ((s.setKs { s.ks with slots := t.ks.slots }).setCtx x
            { r with state := .active, current := some n, next := none, phase := phase, nextPn := 1, blocks := 0, age := 0,
                     softReached := false, switchPending := false, flags := r.flags ||| 0x20#8 }) c .ok
          (octetsOf 2 x.val ++ octetsOf 2 r.generation.toNat ++ [2#8] ++ octetsOf 1 phase.toNat ++ octetsOf 4 1 ++
            [0#8, 0#8]) t ∧
        (t.ctx x).state = .active ∧ (t.ctx x).current = some n ∧ (t.ctx x).next = none ∧ (t.ctx x).nextPn = 1 ∧
        (t.ctx x).blocks = 0 ∧ (t.ctx x).age = 0 ∧ (t.ctx x).switchPending = false ∧
        (t.ctx x).phase = (if r.state = .keyless then r.initialPhase else r.phase + 1#2) ∧
        hasFlag (t.ctx x).flags CtxFlag.switched.bit = true ∧ TenureEnded x (some n) s t)) ∧
  (∀ (s : State) (c : Command), begunCommand 0x43 s = some c → 1023 < field (cmdBody c) 0 2 →
    ∃ t, exec .nextDiscard s = .next t ∧ Answered s c .badIndex [] t) ∧
  (∀ (s : State) (c : Command), begunCommand 0x44 s = some c → 1023 < field (cmdBody c) 0 2 →
    ∃ t, exec .switchRequest s = .next t ∧ Answered s c .badIndex [] t)

/-- R69, R70, R89, R97, R98, R165, R184, R187, R188: GROUP_SWITCH issues a request to each defined context of its group, and a
group without one is answered at once with three zero counts. Each request is decided by its record when it is taken: a READY
next slot switches, and otherwise HOLD leaves the switch pending and ONLY_READY the context as it stands. The last request ends
the command with the counts. A switch makes the new slot CURRENT and releases the old one, and its rises are handled at the
Notice Unit. A group above 15 or a mode above 1 is refused with BAD_VALUE. That the requests are fixed when the command is taken
is assumption 24. A slot is zero from the start of its scrub, which is the model's choice (assumption 31). -/
def Obligations.GroupSwitchTakesEachContext : Prop :=
  (∀ (s : State) (c : Command) (g : Fin 16), begunCommand 0x45 s = some c → field (cmdBody c) 0 1 = g.val →
    field (cmdBody c) 1 1 ≤ 1 → ∃ t, exec .groupSwitch s = .next t ∧
      ((∀ x, (s.ctx x).state = .undefined ∨ (s.ctx x).group ≠ g) →
        Answered s c .ok (octetsOf 2 0 ++ octetsOf 2 0 ++ octetsOf 2 0) t) ∧
      ((∃ x, (s.ctx x).state ≠ .undefined ∧ (s.ctx x).group = g) → ∃ left : List CtxIx,
        (∀ x, x ∈ left ↔ (s.ctx x).state ≠ .undefined ∧ (s.ctx x).group = g) ∧ left.Nodup ∧
        Settled s t ∧ t.agent = { s.agent with
          progress := some { c with stage := .groupSwitch g (field (cmdBody c) 1 1 == 1) left 0 0 0 } })) ∧
  (∀ (s : State) (c : Command) (g : Fin 16) (hold : Bool) (left : List CtxIx) (sw pe mi : Nat) (x : CtxIx),
    s.agent.progress = some c → c.stage = .groupSwitch g hold left sw pe mi → x ∈ left →
    let r := s.ctx x
    let reached := r.state ≠ .undefined ∧ r.group = g
    let sw' := if reached ∧ nextReady r = true then sw + 1 else sw
    let pe' := if reached ∧ nextReady r = false ∧ hold = true then pe + 1 else pe
    let mi' := if reached ∧ nextReady r = false ∧ hold = false then mi + 1 else mi
    ∃ t, exec (.groupSwitchRequest x) s = .next t ∧ RisesQueued x s t ∧
      ((∀ y ∈ left, y = x) → (s.mergeOf c.lane).linkUp = true →
        (⟨responseFrame s c .ok (octetsOf 2 sw' ++ octetsOf 2 pe' ++ octetsOf 2 mi'), false⟩ : ControlFrame) ∈
          controlOrigin (t.mergeOf c.lane)) ∧
      ((∃ y ∈ left, y ≠ x) → t.agent = { s.agent with
        progress := some { c with stage := .groupSwitch g hold (left.filter (fun y => y != x)) sw' pe' mi' } }) ∧
      (∀ n, reached → r.next = some (n, .ready) → (t.ctx x).state = .active ∧ (t.ctx x).current = some n ∧
        (t.ctx x).nextPn = 1 ∧ hasFlag (t.ctx x).flags CtxFlag.switched.bit = true ∧ TenureEnded x (some n) s t) ∧
      ((¬reached ∨ nextReady r = false) → t.ks = s.ks ∧
        ((reached → hold = false) → { t.ctx x with owed := 0#8 } = { r with owed := 0#8 }) ∧
        (reached → hold = true → { t.ctx x with owed := 0#8 } = { r with owed := 0#8, switchPending := true })) ∧
      (∀ y, y ≠ x → { t.ctx y with owed := 0#8 } = { s.ctx y with owed := 0#8 })) ∧
  (∀ (s : State) (c : Command), begunCommand 0x45 s = some c → 15 < field (cmdBody c) 0 1 ∨ 1 < field (cmdBody c) 1 1 →
    ∃ t, exec .groupSwitch s = .next t ∧ Answered s c .badValue [] t)

/-! ## Datapath Restart -/

/-- R19, R41, R70, R116, R119, R173: DATAPATH_RESTART issues its first step, which clears the Selector; the second is a flush of
each lane, whose flush-drop reports, one for each PROTECT record in list order, carry the restart's mark. The third waits while
a report with that mark is in transit; it makes every context UNDEFINED at its device-reset values with the generation advanced
by 1, and releases the slots that the contexts name: a CURRENT one goes to DRAINING or SCRUBBING, a READY one to SCRUBBING, and
an UNWRAPPING one stays. The stages are the model's (assumption 23), and so is the EtherType value that the first step leaves
beside ANY, 0 in SelEntry.reset (assumption 17). A slot is zero from the start of its scrub, which is the model's choice
(assumption 31). -/
def Obligations.RestartStepsOneToThree : Prop :=
  (∀ (s : State) (c : Command), begunCommand 0x0A s = some c → ∃ t, exec .datapathRestart s = .next t ∧
    Settled s t ∧ t.agent = { s.agent with progress := some { c with stage := .restart .selector false } }) ∧
  (∀ (s : State) (c : Command) (free : Bool), s.agent.progress = some c → c.stage = .restart .selector free →
    ∃ t, exec .restartSelectorClear s = .next t ∧ (∀ e, t.entry e = SelEntry.reset) ∧ t.selector.default = .drop ∧
      t = (s.setSelector t.selector).setAgent
        { s.agent with progress := some { c with stage := .restart (.flush [0, 1, 2, 3]) free } }) ∧
  (∀ (s : State) (c : Command) (left : List Lane) (free : Bool) (l : Lane), s.agent.progress = some c →
    c.stage = .restart (.flush left) free → l ∈ left → ∃ v t, exec (.laneFlush l .zeroize) s = .next v ∧
      exec (.laneFlush l .restart) s = .next t ∧ t.cipher = v.cipher ∧ t.ks = v.ks ∧ t.rx = v.rx ∧
      t.transit = { v.transit with
        flushReports := s.transit.flushReports ++ (s.cipherOf l).recs.filterMap (fun r =>
          match r with
          | .protect p => some ⟨p.ctx, p.gen, true⟩
          | _ => none) } ∧
      t.agent = { s.agent with progress := some { c with
        stage := .restart (if (∀ k ∈ left, k = l) then .contexts else .flush (left.filter (fun k => k != l))) free } }) ∧
  (∀ (s : State) (c : Command) (free : Bool), s.agent.progress = some c → c.stage = .restart .contexts free →
    (s.transit.flushReports.any FlushReport.restart = true → exec .restartContexts s = .next s) ∧
    (s.transit.flushReports.any FlushReport.restart = false → ∃ t, exec .restartContexts s = .next t ∧
      (∀ x, t.ctx x = { Ctx.reset with generation := (s.ctx x).generation + 1#16 }) ∧
      (∀ k x, (s.ctx x).current = some k → (s.slot k).owner = some (x, (s.ctx x).generation) →
        (s.slot k).state = .current →
        t.slot k = if (s.slot k).inFlight = 0 then startScrub (s.slot k) else { s.slot k with state := .draining }) ∧
      (∀ k x n, (s.ctx x).next = some (k, n) → (s.slot k).owner = some (x, (s.ctx x).generation) →
        ((s.slot k).state = .ready → t.slot k = startScrub (s.slot k)) ∧
        ((s.slot k).state = .unwrapping → t.slot k = s.slot k)) ∧
      (∀ k, (∀ x, (s.ctx x).current ≠ some k ∧ (s.ctx x).next.map Prod.fst ≠ some k) → t.slot k = s.slot k) ∧
      (∀ k, (∀ x, (s.slot k).owner ≠ some (x, (s.ctx x).generation)) → t.slot k = s.slot k) ∧
      t.agent = { s.agent with progress := some { c with stage := .restart .jobs free } } ∧
      t = { s with ctxs := t.ctxs, ks := { s.ks with slots := t.ks.slots }, agent := t.agent }))

/-- R70, R86, R134, R145, R155, R173, R174, R193: steps 4 to 8 and the end of a restart. The jobs are discarded with no result,
every slot not FREE or SCRUBBING is scrubbed, the queued campus frames are discarded and counted while one in transmission
stays, the pass and the owed ticks are given up but for the visit that the pass has sent (assumption 29), the Notice Queue and
the device owed marks are emptied, and the Key Store's report that every slot is FREE ends the command with OK. A zeroize at the
Key Store meanwhile moves every slot to SCRUBBING, and the restart then ends when the last of them is FREE again: a report
already held does not end it. The stages and that reading are the model's (assumption 23). A slot is zero from the start of its
scrub, which is the model's choice (assumption 31). -/
def Obligations.RestartStepsFourToEight : Prop :=
  ∀ (s : State) (c : Command) (free : Bool), s.agent.progress = some c →
    (c.stage = .restart .jobs free → exec .restartJobDiscard s =
      .next ((s.setKs { s.ks with jobs := [], running := none }).setAgent
        { s.agent with progress := some { c with stage := .restart .slots free } })) ∧
    (c.stage = .restart .slots free → ∃ t, exec .restartSlotScrub s = .next t ∧
      (∀ k, t.slot k =
        if (s.slot k).state = .free ∨ (s.slot k).state = .scrubbing then s.slot k else startScrub (s.slot k)) ∧
      t = { s with ks := { s.ks with slots := t.ks.slots }, agent := t.agent } ∧
      t.agent = { s.agent with progress := some { c with
        stage := .restart (.campus [0, 1, 2, 3]) (decide (s.ks.freeSlots = 2304)) } }) ∧
    (∀ left (l : Lane), c.stage = .restart (.campus left) free → l ∈ left → ∃ t, exec (.restartCampusDiscard l) s = .next t ∧
      (∀ cls, look (t.campusOf l).queues cls = []) ∧ (t.campusOf l).sending = (s.campusOf l).sending ∧
      (t.campusOf l).limits = (s.campusOf l).limits ∧ (t.campusOf l).linkUp = (s.campusOf l).linkUp ∧
      (t.campusOf l).counters = (s.campusOf l).counters.bump CampusCounter.restartDiscards.ix
        ((look (s.campusOf l).queues 0).length + (look (s.campusOf l).queues 1).length +
          (look (s.campusOf l).queues 2).length + (look (s.campusOf l).queues 3).length) ∧
      (∀ j, j ≠ l → t.campusOf j = s.campusOf j) ∧ t.transit = s.transit ∧
      t.agent = { s.agent with progress := some { c with
        stage := .restart (if (∀ k ∈ left, k = l) then .age else .campus (left.filter (fun k => k != l))) free } }) ∧
    (c.stage = .restart .age free → exec .restartAgeTimer s =
      .next (((s.setAge { s.age with pass := none, owed := 0 }).setTransit { s.transit with
          visits := s.transit.visits ++ (s.age.pass.map (fun p => (p.position, p.increment))).toList }).setAgent
        { s.agent with progress := some { c with stage := .restart .notice free } })) ∧
    (c.stage = .restart .notice free → exec .restartNoticeUnit s =
      .next ((s.setNotice { s.notice with queue := [], owed := 0#6 }).setAgent
        { s.agent with progress := some { c with stage := .restart .report free } })) ∧
    (c.stage = .restart .report true → ∃ t, exec .restartSlotsFreeReport s = .next t ∧ Answered s c .ok [] t) ∧
    (c.stage = .restart .report false → exec .restartSlotsFreeReport s = .next s) ∧
    (∀ step, c.stage = .restart step free → ∃ t, exec .keyStoreZeroize s = .next t ∧ t.ks.freeSlots = 0 ∧
      (∀ k, (t.slot k).state = .scrubbing) ∧
      t.agent = { s.agent with progress := some { c with stage := .restart step false } }) ∧
    (∀ k, c.stage = .restart .report false → (s.slot k).state = .scrubbing → s.ks.freeSlots = 2303 →
      ∃ t, exec (.scrubComplete k) s = .next t ∧
        t.agent = { s.agent with progress := some { c with stage := .restart .report true } })
end

