-- ==== Sys2Proof/Laws/State.lean ====
section
/-! SUPPORT. One lemma per field of the state for each replacement of a block's state, and what each replacement leaves at
the rows of its own table. -/

namespace Sys2Proof.Machine

/-! ### Tables -/

/-- Writing back what stands there changes nothing. -/
@[simp] theorem put_look {α : Type} {n : Nat} (t : Vector α n) (i : Fin n) : put t i (look t i) = t := by
  simp [put, look]

/-- The later of two writes to one place stands. -/
@[simp] theorem put_put {α : Type} {n : Nat} (t : Vector α n) (i : Fin n) (x y : α) : put (put t i x) i y = put t i y := by
  simp [put]

variable (s : State)

/-! ### setRx -/

@[simp] theorem State.setRx_rx (l : Lane) (x : TrunkRx) : (s.setRx l x).rx = put s.rx l x := rfl
@[simp] theorem State.setRx_selector (l : Lane) (x : TrunkRx) : (s.setRx l x).selector = s.selector := rfl
@[simp] theorem State.setRx_ctxs (l : Lane) (x : TrunkRx) : (s.setRx l x).ctxs = s.ctxs := rfl
@[simp] theorem State.setRx_ks (l : Lane) (x : TrunkRx) : (s.setRx l x).ks = s.ks := rfl
@[simp] theorem State.setRx_cipher (l : Lane) (x : TrunkRx) : (s.setRx l x).cipher = s.cipher := rfl
@[simp] theorem State.setRx_campus (l : Lane) (x : TrunkRx) : (s.setRx l x).campus = s.campus := rfl
@[simp] theorem State.setRx_age (l : Lane) (x : TrunkRx) : (s.setRx l x).age = s.age := rfl
@[simp] theorem State.setRx_agent (l : Lane) (x : TrunkRx) : (s.setRx l x).agent = s.agent := rfl
@[simp] theorem State.setRx_notice (l : Lane) (x : TrunkRx) : (s.setRx l x).notice = s.notice := rfl
@[simp] theorem State.setRx_merge (l : Lane) (x : TrunkRx) : (s.setRx l x).merge = s.merge := rfl
@[simp] theorem State.setRx_provLane (l : Lane) (x : TrunkRx) : (s.setRx l x).provLane = s.provLane := rfl
@[simp] theorem State.setRx_mkOnce (l : Lane) (x : TrunkRx) : (s.setRx l x).mkOnce = s.mkOnce := rfl
@[simp] theorem State.setRx_transit (l : Lane) (x : TrunkRx) : (s.setRx l x).transit = s.transit := rfl
@[simp] theorem State.setRx_draws (l : Lane) (x : TrunkRx) : (s.setRx l x).draws = s.draws := rfl
@[simp] theorem State.setRx_pending (l : Lane) (x : TrunkRx) : (s.setRx l x).pending = s.pending := rfl

/-! ### setCtx -/

@[simp] theorem State.setCtx_rx (c : CtxIx) (x : Ctx) : (s.setCtx c x).rx = s.rx := rfl
@[simp] theorem State.setCtx_selector (c : CtxIx) (x : Ctx) : (s.setCtx c x).selector = s.selector := rfl
@[simp] theorem State.setCtx_ctxs (c : CtxIx) (x : Ctx) : (s.setCtx c x).ctxs = put s.ctxs c x := rfl
@[simp] theorem State.setCtx_ks (c : CtxIx) (x : Ctx) : (s.setCtx c x).ks = s.ks := rfl
@[simp] theorem State.setCtx_cipher (c : CtxIx) (x : Ctx) : (s.setCtx c x).cipher = s.cipher := rfl
@[simp] theorem State.setCtx_campus (c : CtxIx) (x : Ctx) : (s.setCtx c x).campus = s.campus := rfl
@[simp] theorem State.setCtx_age (c : CtxIx) (x : Ctx) : (s.setCtx c x).age = s.age := rfl
@[simp] theorem State.setCtx_agent (c : CtxIx) (x : Ctx) : (s.setCtx c x).agent = s.agent := rfl
@[simp] theorem State.setCtx_notice (c : CtxIx) (x : Ctx) : (s.setCtx c x).notice = s.notice := rfl
@[simp] theorem State.setCtx_merge (c : CtxIx) (x : Ctx) : (s.setCtx c x).merge = s.merge := rfl
@[simp] theorem State.setCtx_provLane (c : CtxIx) (x : Ctx) : (s.setCtx c x).provLane = s.provLane := rfl
@[simp] theorem State.setCtx_mkOnce (c : CtxIx) (x : Ctx) : (s.setCtx c x).mkOnce = s.mkOnce := rfl
@[simp] theorem State.setCtx_transit (c : CtxIx) (x : Ctx) : (s.setCtx c x).transit = s.transit := rfl
@[simp] theorem State.setCtx_draws (c : CtxIx) (x : Ctx) : (s.setCtx c x).draws = s.draws := rfl
@[simp] theorem State.setCtx_pending (c : CtxIx) (x : Ctx) : (s.setCtx c x).pending = s.pending := rfl

/-! ### setKs -/

@[simp] theorem State.setKs_rx (x : KeyStore) : (s.setKs x).rx = s.rx := rfl
@[simp] theorem State.setKs_selector (x : KeyStore) : (s.setKs x).selector = s.selector := rfl
@[simp] theorem State.setKs_ctxs (x : KeyStore) : (s.setKs x).ctxs = s.ctxs := rfl
@[simp] theorem State.setKs_ks (x : KeyStore) : (s.setKs x).ks = x := rfl
@[simp] theorem State.setKs_cipher (x : KeyStore) : (s.setKs x).cipher = s.cipher := rfl
@[simp] theorem State.setKs_campus (x : KeyStore) : (s.setKs x).campus = s.campus := rfl
@[simp] theorem State.setKs_age (x : KeyStore) : (s.setKs x).age = s.age := rfl
@[simp] theorem State.setKs_agent (x : KeyStore) : (s.setKs x).agent = s.agent := rfl
@[simp] theorem State.setKs_notice (x : KeyStore) : (s.setKs x).notice = s.notice := rfl
@[simp] theorem State.setKs_merge (x : KeyStore) : (s.setKs x).merge = s.merge := rfl
@[simp] theorem State.setKs_provLane (x : KeyStore) : (s.setKs x).provLane = s.provLane := rfl
@[simp] theorem State.setKs_mkOnce (x : KeyStore) : (s.setKs x).mkOnce = s.mkOnce := rfl
@[simp] theorem State.setKs_transit (x : KeyStore) : (s.setKs x).transit = s.transit := rfl
@[simp] theorem State.setKs_draws (x : KeyStore) : (s.setKs x).draws = s.draws := rfl
@[simp] theorem State.setKs_pending (x : KeyStore) : (s.setKs x).pending = s.pending := rfl

/-! ### setSlot -/

@[simp] theorem State.setSlot_rx (k : SlotIx) (x : Slot) : (s.setSlot k x).rx = s.rx := rfl
@[simp] theorem State.setSlot_selector (k : SlotIx) (x : Slot) : (s.setSlot k x).selector = s.selector := rfl
@[simp] theorem State.setSlot_ctxs (k : SlotIx) (x : Slot) : (s.setSlot k x).ctxs = s.ctxs := rfl
@[simp] theorem State.setSlot_ks (k : SlotIx) (x : Slot) : (s.setSlot k x).ks = { s.ks with slots := put s.ks.slots k x } := rfl
@[simp] theorem State.setSlot_cipher (k : SlotIx) (x : Slot) : (s.setSlot k x).cipher = s.cipher := rfl
@[simp] theorem State.setSlot_campus (k : SlotIx) (x : Slot) : (s.setSlot k x).campus = s.campus := rfl
@[simp] theorem State.setSlot_age (k : SlotIx) (x : Slot) : (s.setSlot k x).age = s.age := rfl
@[simp] theorem State.setSlot_agent (k : SlotIx) (x : Slot) : (s.setSlot k x).agent = s.agent := rfl
@[simp] theorem State.setSlot_notice (k : SlotIx) (x : Slot) : (s.setSlot k x).notice = s.notice := rfl
@[simp] theorem State.setSlot_merge (k : SlotIx) (x : Slot) : (s.setSlot k x).merge = s.merge := rfl
@[simp] theorem State.setSlot_provLane (k : SlotIx) (x : Slot) : (s.setSlot k x).provLane = s.provLane := rfl
@[simp] theorem State.setSlot_mkOnce (k : SlotIx) (x : Slot) : (s.setSlot k x).mkOnce = s.mkOnce := rfl
@[simp] theorem State.setSlot_transit (k : SlotIx) (x : Slot) : (s.setSlot k x).transit = s.transit := rfl
@[simp] theorem State.setSlot_draws (k : SlotIx) (x : Slot) : (s.setSlot k x).draws = s.draws := rfl
@[simp] theorem State.setSlot_pending (k : SlotIx) (x : Slot) : (s.setSlot k x).pending = s.pending := rfl

/-! ### setCipher -/

@[simp] theorem State.setCipher_rx (l : Lane) (x : CipherLane) : (s.setCipher l x).rx = s.rx := rfl
@[simp] theorem State.setCipher_selector (l : Lane) (x : CipherLane) : (s.setCipher l x).selector = s.selector := rfl
@[simp] theorem State.setCipher_ctxs (l : Lane) (x : CipherLane) : (s.setCipher l x).ctxs = s.ctxs := rfl
@[simp] theorem State.setCipher_ks (l : Lane) (x : CipherLane) : (s.setCipher l x).ks = s.ks := rfl
@[simp] theorem State.setCipher_cipher (l : Lane) (x : CipherLane) : (s.setCipher l x).cipher = put s.cipher l x := rfl
@[simp] theorem State.setCipher_campus (l : Lane) (x : CipherLane) : (s.setCipher l x).campus = s.campus := rfl
@[simp] theorem State.setCipher_age (l : Lane) (x : CipherLane) : (s.setCipher l x).age = s.age := rfl
@[simp] theorem State.setCipher_agent (l : Lane) (x : CipherLane) : (s.setCipher l x).agent = s.agent := rfl
@[simp] theorem State.setCipher_notice (l : Lane) (x : CipherLane) : (s.setCipher l x).notice = s.notice := rfl
@[simp] theorem State.setCipher_merge (l : Lane) (x : CipherLane) : (s.setCipher l x).merge = s.merge := rfl
@[simp] theorem State.setCipher_provLane (l : Lane) (x : CipherLane) : (s.setCipher l x).provLane = s.provLane := rfl
@[simp] theorem State.setCipher_mkOnce (l : Lane) (x : CipherLane) : (s.setCipher l x).mkOnce = s.mkOnce := rfl
@[simp] theorem State.setCipher_transit (l : Lane) (x : CipherLane) : (s.setCipher l x).transit = s.transit := rfl
@[simp] theorem State.setCipher_draws (l : Lane) (x : CipherLane) : (s.setCipher l x).draws = s.draws := rfl
@[simp] theorem State.setCipher_pending (l : Lane) (x : CipherLane) : (s.setCipher l x).pending = s.pending := rfl

/-! ### setCampus -/

@[simp] theorem State.setCampus_rx (l : Lane) (x : CampusQueue) : (s.setCampus l x).rx = s.rx := rfl
@[simp] theorem State.setCampus_selector (l : Lane) (x : CampusQueue) : (s.setCampus l x).selector = s.selector := rfl
@[simp] theorem State.setCampus_ctxs (l : Lane) (x : CampusQueue) : (s.setCampus l x).ctxs = s.ctxs := rfl
@[simp] theorem State.setCampus_ks (l : Lane) (x : CampusQueue) : (s.setCampus l x).ks = s.ks := rfl
@[simp] theorem State.setCampus_cipher (l : Lane) (x : CampusQueue) : (s.setCampus l x).cipher = s.cipher := rfl
@[simp] theorem State.setCampus_campus (l : Lane) (x : CampusQueue) : (s.setCampus l x).campus = put s.campus l x := rfl
@[simp] theorem State.setCampus_age (l : Lane) (x : CampusQueue) : (s.setCampus l x).age = s.age := rfl
@[simp] theorem State.setCampus_agent (l : Lane) (x : CampusQueue) : (s.setCampus l x).agent = s.agent := rfl
@[simp] theorem State.setCampus_notice (l : Lane) (x : CampusQueue) : (s.setCampus l x).notice = s.notice := rfl
@[simp] theorem State.setCampus_merge (l : Lane) (x : CampusQueue) : (s.setCampus l x).merge = s.merge := rfl
@[simp] theorem State.setCampus_provLane (l : Lane) (x : CampusQueue) : (s.setCampus l x).provLane = s.provLane := rfl
@[simp] theorem State.setCampus_mkOnce (l : Lane) (x : CampusQueue) : (s.setCampus l x).mkOnce = s.mkOnce := rfl
@[simp] theorem State.setCampus_transit (l : Lane) (x : CampusQueue) : (s.setCampus l x).transit = s.transit := rfl
@[simp] theorem State.setCampus_draws (l : Lane) (x : CampusQueue) : (s.setCampus l x).draws = s.draws := rfl
@[simp] theorem State.setCampus_pending (l : Lane) (x : CampusQueue) : (s.setCampus l x).pending = s.pending := rfl

/-! ### setMerge -/

@[simp] theorem State.setMerge_rx (l : Lane) (x : ReturnMerge) : (s.setMerge l x).rx = s.rx := rfl
@[simp] theorem State.setMerge_selector (l : Lane) (x : ReturnMerge) : (s.setMerge l x).selector = s.selector := rfl
@[simp] theorem State.setMerge_ctxs (l : Lane) (x : ReturnMerge) : (s.setMerge l x).ctxs = s.ctxs := rfl
@[simp] theorem State.setMerge_ks (l : Lane) (x : ReturnMerge) : (s.setMerge l x).ks = s.ks := rfl
@[simp] theorem State.setMerge_cipher (l : Lane) (x : ReturnMerge) : (s.setMerge l x).cipher = s.cipher := rfl
@[simp] theorem State.setMerge_campus (l : Lane) (x : ReturnMerge) : (s.setMerge l x).campus = s.campus := rfl
@[simp] theorem State.setMerge_age (l : Lane) (x : ReturnMerge) : (s.setMerge l x).age = s.age := rfl
@[simp] theorem State.setMerge_agent (l : Lane) (x : ReturnMerge) : (s.setMerge l x).agent = s.agent := rfl
@[simp] theorem State.setMerge_notice (l : Lane) (x : ReturnMerge) : (s.setMerge l x).notice = s.notice := rfl
@[simp] theorem State.setMerge_merge (l : Lane) (x : ReturnMerge) : (s.setMerge l x).merge = put s.merge l x := rfl
@[simp] theorem State.setMerge_provLane (l : Lane) (x : ReturnMerge) : (s.setMerge l x).provLane = s.provLane := rfl
@[simp] theorem State.setMerge_mkOnce (l : Lane) (x : ReturnMerge) : (s.setMerge l x).mkOnce = s.mkOnce := rfl
@[simp] theorem State.setMerge_transit (l : Lane) (x : ReturnMerge) : (s.setMerge l x).transit = s.transit := rfl
@[simp] theorem State.setMerge_draws (l : Lane) (x : ReturnMerge) : (s.setMerge l x).draws = s.draws := rfl
@[simp] theorem State.setMerge_pending (l : Lane) (x : ReturnMerge) : (s.setMerge l x).pending = s.pending := rfl

/-! ### setSelector -/

@[simp] theorem State.setSelector_rx (x : Selector) : (s.setSelector x).rx = s.rx := rfl
@[simp] theorem State.setSelector_selector (x : Selector) : (s.setSelector x).selector = x := rfl
@[simp] theorem State.setSelector_ctxs (x : Selector) : (s.setSelector x).ctxs = s.ctxs := rfl
@[simp] theorem State.setSelector_ks (x : Selector) : (s.setSelector x).ks = s.ks := rfl
@[simp] theorem State.setSelector_cipher (x : Selector) : (s.setSelector x).cipher = s.cipher := rfl
@[simp] theorem State.setSelector_campus (x : Selector) : (s.setSelector x).campus = s.campus := rfl
@[simp] theorem State.setSelector_age (x : Selector) : (s.setSelector x).age = s.age := rfl
@[simp] theorem State.setSelector_agent (x : Selector) : (s.setSelector x).agent = s.agent := rfl
@[simp] theorem State.setSelector_notice (x : Selector) : (s.setSelector x).notice = s.notice := rfl
@[simp] theorem State.setSelector_merge (x : Selector) : (s.setSelector x).merge = s.merge := rfl
@[simp] theorem State.setSelector_provLane (x : Selector) : (s.setSelector x).provLane = s.provLane := rfl
@[simp] theorem State.setSelector_mkOnce (x : Selector) : (s.setSelector x).mkOnce = s.mkOnce := rfl
@[simp] theorem State.setSelector_transit (x : Selector) : (s.setSelector x).transit = s.transit := rfl
@[simp] theorem State.setSelector_draws (x : Selector) : (s.setSelector x).draws = s.draws := rfl
@[simp] theorem State.setSelector_pending (x : Selector) : (s.setSelector x).pending = s.pending := rfl

/-! ### setEntry -/

@[simp] theorem State.setEntry_rx (e : SelIx) (x : SelEntry) : (s.setEntry e x).rx = s.rx := rfl
@[simp] theorem State.setEntry_selector (e : SelIx) (x : SelEntry) : (s.setEntry e x).selector = { s.selector with entries := put s.selector.entries e x } := rfl
@[simp] theorem State.setEntry_ctxs (e : SelIx) (x : SelEntry) : (s.setEntry e x).ctxs = s.ctxs := rfl
@[simp] theorem State.setEntry_ks (e : SelIx) (x : SelEntry) : (s.setEntry e x).ks = s.ks := rfl
@[simp] theorem State.setEntry_cipher (e : SelIx) (x : SelEntry) : (s.setEntry e x).cipher = s.cipher := rfl
@[simp] theorem State.setEntry_campus (e : SelIx) (x : SelEntry) : (s.setEntry e x).campus = s.campus := rfl
@[simp] theorem State.setEntry_age (e : SelIx) (x : SelEntry) : (s.setEntry e x).age = s.age := rfl
@[simp] theorem State.setEntry_agent (e : SelIx) (x : SelEntry) : (s.setEntry e x).agent = s.agent := rfl
@[simp] theorem State.setEntry_notice (e : SelIx) (x : SelEntry) : (s.setEntry e x).notice = s.notice := rfl
@[simp] theorem State.setEntry_merge (e : SelIx) (x : SelEntry) : (s.setEntry e x).merge = s.merge := rfl
@[simp] theorem State.setEntry_provLane (e : SelIx) (x : SelEntry) : (s.setEntry e x).provLane = s.provLane := rfl
@[simp] theorem State.setEntry_mkOnce (e : SelIx) (x : SelEntry) : (s.setEntry e x).mkOnce = s.mkOnce := rfl
@[simp] theorem State.setEntry_transit (e : SelIx) (x : SelEntry) : (s.setEntry e x).transit = s.transit := rfl
@[simp] theorem State.setEntry_draws (e : SelIx) (x : SelEntry) : (s.setEntry e x).draws = s.draws := rfl
@[simp] theorem State.setEntry_pending (e : SelIx) (x : SelEntry) : (s.setEntry e x).pending = s.pending := rfl

/-! ### setAge -/

@[simp] theorem State.setAge_rx (x : AgeTimer) : (s.setAge x).rx = s.rx := rfl
@[simp] theorem State.setAge_selector (x : AgeTimer) : (s.setAge x).selector = s.selector := rfl
@[simp] theorem State.setAge_ctxs (x : AgeTimer) : (s.setAge x).ctxs = s.ctxs := rfl
@[simp] theorem State.setAge_ks (x : AgeTimer) : (s.setAge x).ks = s.ks := rfl
@[simp] theorem State.setAge_cipher (x : AgeTimer) : (s.setAge x).cipher = s.cipher := rfl
@[simp] theorem State.setAge_campus (x : AgeTimer) : (s.setAge x).campus = s.campus := rfl
@[simp] theorem State.setAge_age (x : AgeTimer) : (s.setAge x).age = x := rfl
@[simp] theorem State.setAge_agent (x : AgeTimer) : (s.setAge x).agent = s.agent := rfl
@[simp] theorem State.setAge_notice (x : AgeTimer) : (s.setAge x).notice = s.notice := rfl
@[simp] theorem State.setAge_merge (x : AgeTimer) : (s.setAge x).merge = s.merge := rfl
@[simp] theorem State.setAge_provLane (x : AgeTimer) : (s.setAge x).provLane = s.provLane := rfl
@[simp] theorem State.setAge_mkOnce (x : AgeTimer) : (s.setAge x).mkOnce = s.mkOnce := rfl
@[simp] theorem State.setAge_transit (x : AgeTimer) : (s.setAge x).transit = s.transit := rfl
@[simp] theorem State.setAge_draws (x : AgeTimer) : (s.setAge x).draws = s.draws := rfl
@[simp] theorem State.setAge_pending (x : AgeTimer) : (s.setAge x).pending = s.pending := rfl

/-! ### setAgent -/

@[simp] theorem State.setAgent_rx (x : Agent) : (s.setAgent x).rx = s.rx := rfl
@[simp] theorem State.setAgent_selector (x : Agent) : (s.setAgent x).selector = s.selector := rfl
@[simp] theorem State.setAgent_ctxs (x : Agent) : (s.setAgent x).ctxs = s.ctxs := rfl
@[simp] theorem State.setAgent_ks (x : Agent) : (s.setAgent x).ks = s.ks := rfl
@[simp] theorem State.setAgent_cipher (x : Agent) : (s.setAgent x).cipher = s.cipher := rfl
@[simp] theorem State.setAgent_campus (x : Agent) : (s.setAgent x).campus = s.campus := rfl
@[simp] theorem State.setAgent_age (x : Agent) : (s.setAgent x).age = s.age := rfl
@[simp] theorem State.setAgent_agent (x : Agent) : (s.setAgent x).agent = x := rfl
@[simp] theorem State.setAgent_notice (x : Agent) : (s.setAgent x).notice = s.notice := rfl
@[simp] theorem State.setAgent_merge (x : Agent) : (s.setAgent x).merge = s.merge := rfl
@[simp] theorem State.setAgent_provLane (x : Agent) : (s.setAgent x).provLane = s.provLane := rfl
@[simp] theorem State.setAgent_mkOnce (x : Agent) : (s.setAgent x).mkOnce = s.mkOnce := rfl
@[simp] theorem State.setAgent_transit (x : Agent) : (s.setAgent x).transit = s.transit := rfl
@[simp] theorem State.setAgent_draws (x : Agent) : (s.setAgent x).draws = s.draws := rfl
@[simp] theorem State.setAgent_pending (x : Agent) : (s.setAgent x).pending = s.pending := rfl

/-! ### setNotice -/

@[simp] theorem State.setNotice_rx (x : NoticeUnit) : (s.setNotice x).rx = s.rx := rfl
@[simp] theorem State.setNotice_selector (x : NoticeUnit) : (s.setNotice x).selector = s.selector := rfl
@[simp] theorem State.setNotice_ctxs (x : NoticeUnit) : (s.setNotice x).ctxs = s.ctxs := rfl
@[simp] theorem State.setNotice_ks (x : NoticeUnit) : (s.setNotice x).ks = s.ks := rfl
@[simp] theorem State.setNotice_cipher (x : NoticeUnit) : (s.setNotice x).cipher = s.cipher := rfl
@[simp] theorem State.setNotice_campus (x : NoticeUnit) : (s.setNotice x).campus = s.campus := rfl
@[simp] theorem State.setNotice_age (x : NoticeUnit) : (s.setNotice x).age = s.age := rfl
@[simp] theorem State.setNotice_agent (x : NoticeUnit) : (s.setNotice x).agent = s.agent := rfl
@[simp] theorem State.setNotice_notice (x : NoticeUnit) : (s.setNotice x).notice = x := rfl
@[simp] theorem State.setNotice_merge (x : NoticeUnit) : (s.setNotice x).merge = s.merge := rfl
@[simp] theorem State.setNotice_provLane (x : NoticeUnit) : (s.setNotice x).provLane = s.provLane := rfl
@[simp] theorem State.setNotice_mkOnce (x : NoticeUnit) : (s.setNotice x).mkOnce = s.mkOnce := rfl
@[simp] theorem State.setNotice_transit (x : NoticeUnit) : (s.setNotice x).transit = s.transit := rfl
@[simp] theorem State.setNotice_draws (x : NoticeUnit) : (s.setNotice x).draws = s.draws := rfl
@[simp] theorem State.setNotice_pending (x : NoticeUnit) : (s.setNotice x).pending = s.pending := rfl

/-! ### setTransit -/

@[simp] theorem State.setTransit_rx (x : Transit) : (s.setTransit x).rx = s.rx := rfl
@[simp] theorem State.setTransit_selector (x : Transit) : (s.setTransit x).selector = s.selector := rfl
@[simp] theorem State.setTransit_ctxs (x : Transit) : (s.setTransit x).ctxs = s.ctxs := rfl
@[simp] theorem State.setTransit_ks (x : Transit) : (s.setTransit x).ks = s.ks := rfl
@[simp] theorem State.setTransit_cipher (x : Transit) : (s.setTransit x).cipher = s.cipher := rfl
@[simp] theorem State.setTransit_campus (x : Transit) : (s.setTransit x).campus = s.campus := rfl
@[simp] theorem State.setTransit_age (x : Transit) : (s.setTransit x).age = s.age := rfl
@[simp] theorem State.setTransit_agent (x : Transit) : (s.setTransit x).agent = s.agent := rfl
@[simp] theorem State.setTransit_notice (x : Transit) : (s.setTransit x).notice = s.notice := rfl
@[simp] theorem State.setTransit_merge (x : Transit) : (s.setTransit x).merge = s.merge := rfl
@[simp] theorem State.setTransit_provLane (x : Transit) : (s.setTransit x).provLane = s.provLane := rfl
@[simp] theorem State.setTransit_mkOnce (x : Transit) : (s.setTransit x).mkOnce = s.mkOnce := rfl
@[simp] theorem State.setTransit_transit (x : Transit) : (s.setTransit x).transit = x := rfl
@[simp] theorem State.setTransit_draws (x : Transit) : (s.setTransit x).draws = s.draws := rfl
@[simp] theorem State.setTransit_pending (x : Transit) : (s.setTransit x).pending = s.pending := rfl

/-! ### Rows of the tables -/

/-- The row replaced reads as the new one. -/
@[simp] theorem State.setRx_rxOf_same (l : Lane) (x : TrunkRx) : (s.setRx l x).rxOf l = x := by simp [State.rxOf]
/-- Every other row reads as before. -/
theorem State.setRx_rxOf_ne {l j : Lane} (x : TrunkRx) (h : j ≠ l) : (s.setRx l x).rxOf j = s.rxOf j := by
  simp [State.rxOf, look_put_ne _ x h]
/-- Any row after the replacement. -/
theorem State.setRx_rxOf (l j : Lane) (x : TrunkRx) :
    (s.setRx l x).rxOf j = if j = l then x else s.rxOf j := by simp [State.rxOf, look_put]
/-- The row replaced reads as the new one. -/
@[simp] theorem State.setCtx_ctx_same (c : CtxIx) (x : Ctx) : (s.setCtx c x).ctx c = x := by simp [State.ctx]
/-- Every other row reads as before. -/
theorem State.setCtx_ctx_ne {c j : CtxIx} (x : Ctx) (h : j ≠ c) : (s.setCtx c x).ctx j = s.ctx j := by
  simp [State.ctx, look_put_ne _ x h]
/-- Any row after the replacement. -/
theorem State.setCtx_ctx (c j : CtxIx) (x : Ctx) :
    (s.setCtx c x).ctx j = if j = c then x else s.ctx j := by simp [State.ctx, look_put]
/-- The row replaced reads as the new one. -/
@[simp] theorem State.setSlot_slot_same (k : SlotIx) (x : Slot) : (s.setSlot k x).slot k = x := by simp [State.slot]
/-- Every other row reads as before. -/
theorem State.setSlot_slot_ne {k j : SlotIx} (x : Slot) (h : j ≠ k) : (s.setSlot k x).slot j = s.slot j := by
  simp [State.slot, look_put_ne _ x h]
/-- Any row after the replacement. -/
theorem State.setSlot_slot (k j : SlotIx) (x : Slot) :
    (s.setSlot k x).slot j = if j = k then x else s.slot j := by simp [State.slot, look_put]
/-- The row replaced reads as the new one. -/
@[simp] theorem State.setCipher_cipherOf_same (l : Lane) (x : CipherLane) : (s.setCipher l x).cipherOf l = x := by simp [State.cipherOf]
/-- Every other row reads as before. -/
theorem State.setCipher_cipherOf_ne {l j : Lane} (x : CipherLane) (h : j ≠ l) : (s.setCipher l x).cipherOf j = s.cipherOf j := by
  simp [State.cipherOf, look_put_ne _ x h]
/-- Any row after the replacement. -/
theorem State.setCipher_cipherOf (l j : Lane) (x : CipherLane) :
    (s.setCipher l x).cipherOf j = if j = l then x else s.cipherOf j := by simp [State.cipherOf, look_put]
/-- The row replaced reads as the new one. -/
@[simp] theorem State.setCampus_campusOf_same (l : Lane) (x : CampusQueue) : (s.setCampus l x).campusOf l = x := by simp [State.campusOf]
/-- Every other row reads as before. -/
theorem State.setCampus_campusOf_ne {l j : Lane} (x : CampusQueue) (h : j ≠ l) : (s.setCampus l x).campusOf j = s.campusOf j := by
  simp [State.campusOf, look_put_ne _ x h]
/-- Any row after the replacement. -/
theorem State.setCampus_campusOf (l j : Lane) (x : CampusQueue) :
    (s.setCampus l x).campusOf j = if j = l then x else s.campusOf j := by simp [State.campusOf, look_put]
/-- The row replaced reads as the new one. -/
@[simp] theorem State.setMerge_mergeOf_same (l : Lane) (x : ReturnMerge) : (s.setMerge l x).mergeOf l = x := by simp [State.mergeOf]
/-- Every other row reads as before. -/
theorem State.setMerge_mergeOf_ne {l j : Lane} (x : ReturnMerge) (h : j ≠ l) : (s.setMerge l x).mergeOf j = s.mergeOf j := by
  simp [State.mergeOf, look_put_ne _ x h]
/-- Any row after the replacement. -/
theorem State.setMerge_mergeOf (l j : Lane) (x : ReturnMerge) :
    (s.setMerge l x).mergeOf j = if j = l then x else s.mergeOf j := by simp [State.mergeOf, look_put]
/-- The row replaced reads as the new one. -/
@[simp] theorem State.setEntry_entry_same (e : SelIx) (x : SelEntry) : (s.setEntry e x).entry e = x := by simp [State.entry]
/-- Every other row reads as before. -/
theorem State.setEntry_entry_ne {e j : SelIx} (x : SelEntry) (h : j ≠ e) : (s.setEntry e x).entry j = s.entry j := by
  simp [State.entry, look_put_ne _ x h]
/-- Any row after the replacement. -/
theorem State.setEntry_entry (e j : SelIx) (x : SelEntry) :
    (s.setEntry e x).entry j = if j = e then x else s.entry j := by simp [State.entry, look_put]

/-! ### Rows of the tables that a replacement does not reach -/

@[simp] theorem State.setRx_ctx (l : Lane) (x : TrunkRx) (j : CtxIx) : (s.setRx l x).ctx j = s.ctx j := rfl
@[simp] theorem State.setRx_slot (l : Lane) (x : TrunkRx) (j : SlotIx) : (s.setRx l x).slot j = s.slot j := rfl
@[simp] theorem State.setRx_cipherOf (l : Lane) (x : TrunkRx) (j : Lane) : (s.setRx l x).cipherOf j = s.cipherOf j := rfl
@[simp] theorem State.setRx_campusOf (l : Lane) (x : TrunkRx) (j : Lane) : (s.setRx l x).campusOf j = s.campusOf j := rfl
@[simp] theorem State.setRx_mergeOf (l : Lane) (x : TrunkRx) (j : Lane) : (s.setRx l x).mergeOf j = s.mergeOf j := rfl
@[simp] theorem State.setRx_entry (l : Lane) (x : TrunkRx) (j : SelIx) : (s.setRx l x).entry j = s.entry j := rfl
@[simp] theorem State.setCtx_rxOf (c : CtxIx) (x : Ctx) (j : Lane) : (s.setCtx c x).rxOf j = s.rxOf j := rfl
@[simp] theorem State.setCtx_slot (c : CtxIx) (x : Ctx) (j : SlotIx) : (s.setCtx c x).slot j = s.slot j := rfl
@[simp] theorem State.setCtx_cipherOf (c : CtxIx) (x : Ctx) (j : Lane) : (s.setCtx c x).cipherOf j = s.cipherOf j := rfl
@[simp] theorem State.setCtx_campusOf (c : CtxIx) (x : Ctx) (j : Lane) : (s.setCtx c x).campusOf j = s.campusOf j := rfl
@[simp] theorem State.setCtx_mergeOf (c : CtxIx) (x : Ctx) (j : Lane) : (s.setCtx c x).mergeOf j = s.mergeOf j := rfl
@[simp] theorem State.setCtx_entry (c : CtxIx) (x : Ctx) (j : SelIx) : (s.setCtx c x).entry j = s.entry j := rfl
@[simp] theorem State.setKs_rxOf (x : KeyStore) (j : Lane) : (s.setKs x).rxOf j = s.rxOf j := rfl
@[simp] theorem State.setKs_ctx (x : KeyStore) (j : CtxIx) : (s.setKs x).ctx j = s.ctx j := rfl
@[simp] theorem State.setKs_cipherOf (x : KeyStore) (j : Lane) : (s.setKs x).cipherOf j = s.cipherOf j := rfl
@[simp] theorem State.setKs_campusOf (x : KeyStore) (j : Lane) : (s.setKs x).campusOf j = s.campusOf j := rfl
@[simp] theorem State.setKs_mergeOf (x : KeyStore) (j : Lane) : (s.setKs x).mergeOf j = s.mergeOf j := rfl
@[simp] theorem State.setKs_entry (x : KeyStore) (j : SelIx) : (s.setKs x).entry j = s.entry j := rfl
@[simp] theorem State.setSlot_rxOf (k : SlotIx) (x : Slot) (j : Lane) : (s.setSlot k x).rxOf j = s.rxOf j := rfl
@[simp] theorem State.setSlot_ctx (k : SlotIx) (x : Slot) (j : CtxIx) : (s.setSlot k x).ctx j = s.ctx j := rfl
@[simp] theorem State.setSlot_cipherOf (k : SlotIx) (x : Slot) (j : Lane) : (s.setSlot k x).cipherOf j = s.cipherOf j := rfl
@[simp] theorem State.setSlot_campusOf (k : SlotIx) (x : Slot) (j : Lane) : (s.setSlot k x).campusOf j = s.campusOf j := rfl
@[simp] theorem State.setSlot_mergeOf (k : SlotIx) (x : Slot) (j : Lane) : (s.setSlot k x).mergeOf j = s.mergeOf j := rfl
@[simp] theorem State.setSlot_entry (k : SlotIx) (x : Slot) (j : SelIx) : (s.setSlot k x).entry j = s.entry j := rfl
@[simp] theorem State.setCipher_rxOf (l : Lane) (x : CipherLane) (j : Lane) : (s.setCipher l x).rxOf j = s.rxOf j := rfl
@[simp] theorem State.setCipher_ctx (l : Lane) (x : CipherLane) (j : CtxIx) : (s.setCipher l x).ctx j = s.ctx j := rfl
@[simp] theorem State.setCipher_slot (l : Lane) (x : CipherLane) (j : SlotIx) : (s.setCipher l x).slot j = s.slot j := rfl
@[simp] theorem State.setCipher_campusOf (l : Lane) (x : CipherLane) (j : Lane) : (s.setCipher l x).campusOf j = s.campusOf j := rfl
@[simp] theorem State.setCipher_mergeOf (l : Lane) (x : CipherLane) (j : Lane) : (s.setCipher l x).mergeOf j = s.mergeOf j := rfl
@[simp] theorem State.setCipher_entry (l : Lane) (x : CipherLane) (j : SelIx) : (s.setCipher l x).entry j = s.entry j := rfl
@[simp] theorem State.setCampus_rxOf (l : Lane) (x : CampusQueue) (j : Lane) : (s.setCampus l x).rxOf j = s.rxOf j := rfl
@[simp] theorem State.setCampus_ctx (l : Lane) (x : CampusQueue) (j : CtxIx) : (s.setCampus l x).ctx j = s.ctx j := rfl
@[simp] theorem State.setCampus_slot (l : Lane) (x : CampusQueue) (j : SlotIx) : (s.setCampus l x).slot j = s.slot j := rfl
@[simp] theorem State.setCampus_cipherOf (l : Lane) (x : CampusQueue) (j : Lane) : (s.setCampus l x).cipherOf j = s.cipherOf j := rfl
@[simp] theorem State.setCampus_mergeOf (l : Lane) (x : CampusQueue) (j : Lane) : (s.setCampus l x).mergeOf j = s.mergeOf j := rfl
@[simp] theorem State.setCampus_entry (l : Lane) (x : CampusQueue) (j : SelIx) : (s.setCampus l x).entry j = s.entry j := rfl
@[simp] theorem State.setMerge_rxOf (l : Lane) (x : ReturnMerge) (j : Lane) : (s.setMerge l x).rxOf j = s.rxOf j := rfl
@[simp] theorem State.setMerge_ctx (l : Lane) (x : ReturnMerge) (j : CtxIx) : (s.setMerge l x).ctx j = s.ctx j := rfl
@[simp] theorem State.setMerge_slot (l : Lane) (x : ReturnMerge) (j : SlotIx) : (s.setMerge l x).slot j = s.slot j := rfl
@[simp] theorem State.setMerge_cipherOf (l : Lane) (x : ReturnMerge) (j : Lane) : (s.setMerge l x).cipherOf j = s.cipherOf j := rfl
@[simp] theorem State.setMerge_campusOf (l : Lane) (x : ReturnMerge) (j : Lane) : (s.setMerge l x).campusOf j = s.campusOf j := rfl
@[simp] theorem State.setMerge_entry (l : Lane) (x : ReturnMerge) (j : SelIx) : (s.setMerge l x).entry j = s.entry j := rfl
@[simp] theorem State.setSelector_rxOf (x : Selector) (j : Lane) : (s.setSelector x).rxOf j = s.rxOf j := rfl
@[simp] theorem State.setSelector_ctx (x : Selector) (j : CtxIx) : (s.setSelector x).ctx j = s.ctx j := rfl
@[simp] theorem State.setSelector_slot (x : Selector) (j : SlotIx) : (s.setSelector x).slot j = s.slot j := rfl
@[simp] theorem State.setSelector_cipherOf (x : Selector) (j : Lane) : (s.setSelector x).cipherOf j = s.cipherOf j := rfl
@[simp] theorem State.setSelector_campusOf (x : Selector) (j : Lane) : (s.setSelector x).campusOf j = s.campusOf j := rfl
@[simp] theorem State.setSelector_mergeOf (x : Selector) (j : Lane) : (s.setSelector x).mergeOf j = s.mergeOf j := rfl
@[simp] theorem State.setEntry_rxOf (e : SelIx) (x : SelEntry) (j : Lane) : (s.setEntry e x).rxOf j = s.rxOf j := rfl
@[simp] theorem State.setEntry_ctx (e : SelIx) (x : SelEntry) (j : CtxIx) : (s.setEntry e x).ctx j = s.ctx j := rfl
@[simp] theorem State.setEntry_slot (e : SelIx) (x : SelEntry) (j : SlotIx) : (s.setEntry e x).slot j = s.slot j := rfl
@[simp] theorem State.setEntry_cipherOf (e : SelIx) (x : SelEntry) (j : Lane) : (s.setEntry e x).cipherOf j = s.cipherOf j := rfl
@[simp] theorem State.setEntry_campusOf (e : SelIx) (x : SelEntry) (j : Lane) : (s.setEntry e x).campusOf j = s.campusOf j := rfl
@[simp] theorem State.setEntry_mergeOf (e : SelIx) (x : SelEntry) (j : Lane) : (s.setEntry e x).mergeOf j = s.mergeOf j := rfl
@[simp] theorem State.setAge_rxOf (x : AgeTimer) (j : Lane) : (s.setAge x).rxOf j = s.rxOf j := rfl
@[simp] theorem State.setAge_ctx (x : AgeTimer) (j : CtxIx) : (s.setAge x).ctx j = s.ctx j := rfl
@[simp] theorem State.setAge_slot (x : AgeTimer) (j : SlotIx) : (s.setAge x).slot j = s.slot j := rfl
@[simp] theorem State.setAge_cipherOf (x : AgeTimer) (j : Lane) : (s.setAge x).cipherOf j = s.cipherOf j := rfl
@[simp] theorem State.setAge_campusOf (x : AgeTimer) (j : Lane) : (s.setAge x).campusOf j = s.campusOf j := rfl
@[simp] theorem State.setAge_mergeOf (x : AgeTimer) (j : Lane) : (s.setAge x).mergeOf j = s.mergeOf j := rfl
@[simp] theorem State.setAge_entry (x : AgeTimer) (j : SelIx) : (s.setAge x).entry j = s.entry j := rfl
@[simp] theorem State.setAgent_rxOf (x : Agent) (j : Lane) : (s.setAgent x).rxOf j = s.rxOf j := rfl
@[simp] theorem State.setAgent_ctx (x : Agent) (j : CtxIx) : (s.setAgent x).ctx j = s.ctx j := rfl
@[simp] theorem State.setAgent_slot (x : Agent) (j : SlotIx) : (s.setAgent x).slot j = s.slot j := rfl
@[simp] theorem State.setAgent_cipherOf (x : Agent) (j : Lane) : (s.setAgent x).cipherOf j = s.cipherOf j := rfl
@[simp] theorem State.setAgent_campusOf (x : Agent) (j : Lane) : (s.setAgent x).campusOf j = s.campusOf j := rfl
@[simp] theorem State.setAgent_mergeOf (x : Agent) (j : Lane) : (s.setAgent x).mergeOf j = s.mergeOf j := rfl
@[simp] theorem State.setAgent_entry (x : Agent) (j : SelIx) : (s.setAgent x).entry j = s.entry j := rfl
@[simp] theorem State.setNotice_rxOf (x : NoticeUnit) (j : Lane) : (s.setNotice x).rxOf j = s.rxOf j := rfl
@[simp] theorem State.setNotice_ctx (x : NoticeUnit) (j : CtxIx) : (s.setNotice x).ctx j = s.ctx j := rfl
@[simp] theorem State.setNotice_slot (x : NoticeUnit) (j : SlotIx) : (s.setNotice x).slot j = s.slot j := rfl
@[simp] theorem State.setNotice_cipherOf (x : NoticeUnit) (j : Lane) : (s.setNotice x).cipherOf j = s.cipherOf j := rfl
@[simp] theorem State.setNotice_campusOf (x : NoticeUnit) (j : Lane) : (s.setNotice x).campusOf j = s.campusOf j := rfl
@[simp] theorem State.setNotice_mergeOf (x : NoticeUnit) (j : Lane) : (s.setNotice x).mergeOf j = s.mergeOf j := rfl
@[simp] theorem State.setNotice_entry (x : NoticeUnit) (j : SelIx) : (s.setNotice x).entry j = s.entry j := rfl
@[simp] theorem State.setTransit_rxOf (x : Transit) (j : Lane) : (s.setTransit x).rxOf j = s.rxOf j := rfl
@[simp] theorem State.setTransit_ctx (x : Transit) (j : CtxIx) : (s.setTransit x).ctx j = s.ctx j := rfl
@[simp] theorem State.setTransit_slot (x : Transit) (j : SlotIx) : (s.setTransit x).slot j = s.slot j := rfl
@[simp] theorem State.setTransit_cipherOf (x : Transit) (j : Lane) : (s.setTransit x).cipherOf j = s.cipherOf j := rfl
@[simp] theorem State.setTransit_campusOf (x : Transit) (j : Lane) : (s.setTransit x).campusOf j = s.campusOf j := rfl
@[simp] theorem State.setTransit_mergeOf (x : Transit) (j : Lane) : (s.setTransit x).mergeOf j = s.mergeOf j := rfl
@[simp] theorem State.setTransit_entry (x : Transit) (j : SelIx) : (s.setTransit x).entry j = s.entry j := rfl

end Sys2Proof.Machine
end

