-- ==== Sys2Proof/Laws/Events.lean ====
section
/-! SUPPORT. What the shared operations at the end of an event can do: flags and notices, the Control Agent's intake, and
responses. Each lemma says it once, in the terms of `Settled` and `Answered`. -/

namespace Sys2Proof.Machine

/-! ## Every command is taken -/

/-- Every command answers a next state. -/
theorem exec_next (i : Instr) (s : State) : ∃ t, exec i s = .next t := by
  cases i <;> exact ⟨_, rfl⟩

/-! ## `Settled` is a preorder -/

theorem Settled.refl (s : State) : Settled s s := by
  constructor <;> (intros; first | rfl | exact ⟨rfl, rfl⟩)

theorem Settled.trans {a b c : State} (h : Settled a b) (k : Settled b c) : Settled a c where
  rx := k.rx.trans h.rx
  selector := k.selector.trans h.selector
  ctxs x := (k.ctxs x).trans (h.ctxs x)
  ks := k.ks.trans h.ks
  cipher := k.cipher.trans h.cipher
  campus := k.campus.trans h.campus
  age := k.age.trans h.age
  address := k.address.trans h.address
  envelopeType := k.envelopeType.trans h.envelopeType
  enables := k.enables.trans h.enables
  master := k.master.trans h.master
  route := k.route.trans h.route
  relay l := (k.relay l).trans (h.relay l)
  counters l hl := (k.counters l (by rw [h.linkUp]; exact hl)).trans (h.counters l hl)
  linkUp l := (k.linkUp l).trans (h.linkUp l)
  straps := ⟨k.straps.1.trans h.straps.1, k.straps.2.trans h.straps.2⟩
  transit := k.transit.trans h.transit
  pending := k.pending.trans h.pending

/-- A change of the notice fields that an event's end may change. -/
theorem settled_notice (s : State) (f o : BitVec 6) (q : List NoticeRecord) (n : BitVec 16) :
    Settled s (s.setNotice ⟨f, s.notice.enables, o, s.notice.master, q, s.notice.route, n⟩) := by
  constructor <;> (intros; first | rfl | exact ⟨rfl, rfl⟩)

/-- A change of a context's owed marks. -/
theorem settled_owed (s : State) (c : CtxIx) (o : BitVec 8) : Settled s (s.setCtx c { s.ctx c with owed := o }) where
  ctxs x := by
    rw [State.setCtx_ctx]
    split
    · next h => subst h; rfl
    · rfl
  rx := rfl
  selector := rfl
  ks := rfl
  cipher := rfl
  campus := rfl
  age := rfl
  address := rfl
  envelopeType := rfl
  enables := rfl
  master := rfl
  route := rfl
  relay _ := rfl
  counters _ _ := rfl
  linkUp _ := rfl
  straps := ⟨rfl, rfl⟩
  transit := rfl
  pending := rfl

/-- A change of the agent that keeps its settings. -/
theorem settled_agent (s : State) (i : List IntakeFrame) (p : Option Command) (c : CounterSet 7) (n : Nat) :
    Settled s (s.setAgent ⟨i, p, s.agent.address, s.agent.envelopeType, c, n⟩) := by
  constructor <;> (intros; first | rfl | exact ⟨rfl, rfl⟩)

/-- A change of a Return Merge that keeps its Relay FIFO and its link state, and its counters while the link is UP. -/
theorem settled_merge (s : State) (l : Lane) (m : ReturnMerge) (h₁ : m.relay = (s.mergeOf l).relay)
    (h₂ : m.linkUp = (s.mergeOf l).linkUp) (h₃ : (s.mergeOf l).linkUp = true → m.counters = (s.mergeOf l).counters) :
    Settled s (s.setMerge l m) where
  counters k hk := by
    rw [State.setMerge_mergeOf]
    split
    · next h => subst h; exact h₃ hk
    · rfl
  relay k := by
    rw [State.setMerge_mergeOf]
    split
    · next h => subst h; exact h₁
    · rfl
  linkUp k := by
    rw [State.setMerge_mergeOf]
    split
    · next h => subst h; exact h₂
    · rfl
  rx := rfl
  selector := rfl
  ctxs _ := rfl
  ks := rfl
  cipher := rfl
  campus := rfl
  age := rfl
  address := rfl
  envelopeType := rfl
  enables := rfl
  master := rfl
  route := rfl
  straps := ⟨rfl, rfl⟩
  transit := rfl
  pending := rfl

/-- The count of free values drawn. -/
theorem settled_drawn (s : State) : Settled s (drawn s) := by
  constructor <;> (intros; first | rfl | exact ⟨rfl, rfl⟩)

/-! ## Flags and notices -/

theorem queueRecord_settled (n : NoticeRecord) (s : State) : Settled s (queueRecord n s) := settled_notice _ _ _ _ _

theorem ctxRise_settled (c : CtxIx) (f : CtxFlag) (s : State) : Settled s (ctxRise c f s) := by
  unfold ctxRise
  split
  · split
    · exact queueRecord_settled _ _
    · exact settled_owed _ _ _
  · exact .refl _

theorem reportFlags_settled (c : CtxIx) (b : BitVec 8) (fs : List CtxFlag) (s : State) :
    Settled s (reportFlags c b fs s) := by
  induction fs generalizing s with
  | nil => exact .refl _
  | cons f fs ih =>
    unfold reportFlags
    refine Settled.trans ?_ (ih _)
    split
    · exact ctxRise_settled _ _ _
    · exact .refl _

/-- Reporting the rises of a context reaches the Notice Queue and the context's owed marks alone. -/
theorem reportRises_settled (c : CtxIx) (s₀ s : State) : Settled s (reportRises c s₀ s) := reportFlags_settled _ _ _ _

/-- No rise, no change. -/
theorem takeRises_nil (c : CtxIx) (u : State) : takeRises c [] u = u := by
  have h : u.ctxs = put u.ctxs c (u.ctx c) := (put_look _ _).symm
  have e : takeRises c [] u = { u with ctxs := put u.ctxs c (u.ctx c) } := by
    simp only [takeRises, List.take_nil, List.drop_nil, List.map_nil, List.foldl_nil, List.append_nil]; rfl
  rw [e, ← h]

/-- A rise that finds room gives its DIRECT record (R187). -/
theorem takeRises_room {c : CtxIx} {f : CtxFlag} {fs : List CtxFlag} {u : State} (h : u.notice.queue.length < 64) :
    takeRises c (f :: fs) u = takeRises c fs (queueRecord (makeRecord (.context c f) .direct u) u) := by
  have e : 64 - u.notice.queue.length = (64 - (u.notice.queue.length + 1)) + 1 := by omega
  have d : directRecord c (queueRecord (makeRecord (.context c f) .direct u) u) = directRecord c u := rfl
  simp only [takeRises, d]
  simp [queueRecord, e, State.setCtx, State.setNotice, State.ctx, directRecord, makeRecord]

/-- A rise that finds 64 records sets its owed mark (R187). -/
theorem takeRises_full {c : CtxIx} {f : CtxFlag} {fs : List CtxFlag} {u : State} (h : 64 ≤ u.notice.queue.length) :
    takeRises c (f :: fs) u = takeRises c fs (u.setCtx c { u.ctx c with owed := setFlag (u.ctx c).owed f.bit }) := by
  have e : 64 - u.notice.queue.length = 0 := by omega
  simp [takeRises, e, State.setCtx, State.setNotice, State.ctx, put_put]

/-- What reporting the flags of a list does (R187). -/
theorem reportFlags_eq (c : CtxIx) (b : BitVec 8) (fs : List CtxFlag) (s : State) :
    reportFlags c b fs s = takeRises c (fs.filter (fun f => !hasFlag b f.bit && hasFlag (s.ctx c).flags f.bit &&
      (s.notice.master && hasFlag (s.ctx c).enables f.bit))) s := by
  induction fs generalizing s with
  | nil => rw [reportFlags, List.filter_nil, takeRises_nil]
  | cons f fs ih =>
    rw [reportFlags, ih]
    by_cases hr : (!hasFlag b f.bit && hasFlag (s.ctx c).flags f.bit) = true
    · rw [if_pos hr]
      by_cases he : (s.notice.master && hasFlag (s.ctx c).enables f.bit) = true
      · rw [List.filter_cons_of_pos (by rw [hr, he]; rfl)]
        by_cases hq : s.notice.queue.length < 64
        · have e : ctxRise c f s = queueRecord (makeRecord (.context c f) .direct s) s := by
            unfold ctxRise; rw [if_pos he]; exact if_pos hq
          rw [e, takeRises_room hq]; rfl
        · have e : ctxRise c f s = s.setCtx c { s.ctx c with owed := setFlag (s.ctx c).owed f.bit } := by
            unfold ctxRise; rw [if_pos he]; exact if_neg hq
          rw [e, takeRises_full (by omega)]; simp
      · have e : ctxRise c f s = s := by unfold ctxRise; exact if_neg he
        rw [e, List.filter_cons_of_neg (by rw [hr]; simpa using he)]
    · have hf : ¬((!hasFlag b f.bit && hasFlag (s.ctx c).flags f.bit &&
          (s.notice.master && hasFlag (s.ctx c).enables f.bit)) = true) := fun h => hr (Bool.and_eq_true_iff.mp h).1
      rw [if_neg hr, List.filter_cons, if_neg hf]

/-- Reporting the rises of a context is the Notice Unit's action on them in the order of R38. -/
theorem reportRises_eq (c : CtxIx) (s₀ s : State) :
    reportRises c s₀ s = takeRises c (enabledRises c (s₀.ctx c).flags s) s := reportFlags_eq _ _ _ _

/-- Raising a device flag reaches the device flags, the Notice Queue and the device owed marks alone. -/
theorem raiseDevice_settled (f : DevFlag) (s : State) : Settled s (raiseDevice f s) := by
  unfold raiseDevice
  split
  · exact .refl _
  · have h₁ : Settled s (s.setNotice { s.notice with flags := setFlag s.notice.flags f.bit }) := settled_notice s _ _ _ _
    simp only
    split
    · split
      · exact h₁.trans (queueRecord_settled _ _)
      · exact h₁.trans (settled_notice _ _ _ _ _)
    · exact h₁

theorem takeOwed_settled (s : State) : Settled s (takeOwed s) := by
  unfold takeOwed
  split
  · exact (settled_notice s _ _ _ _).trans (queueRecord_settled _ _)
  · split
    · exact .refl _
    · split
      · exact .refl _
      · exact (settled_owed s _ _).trans (queueRecord_settled _ _)

/-! ## The Return Merge -/

/-- Starting a transmission changes the sending frame and the queue it is taken from. -/
theorem mergeStart_linkUp (m : ReturnMerge) : (mergeStart m).linkUp = m.linkUp := by
  unfold mergeStart; split
  · split <;> rfl
  · rfl

theorem mergeStart_reserved (m : ReturnMerge) : (mergeStart m).reserved = m.reserved := by
  unfold mergeStart; split
  · split <;> rfl
  · rfl

theorem mergeStart_counters (m : ReturnMerge) : (mergeStart m).counters = m.counters := by
  unfold mergeStart; split
  · split <;> rfl
  · rfl

/-- A start takes from the Relay FIFO only when no control-origin frame waits (R163). -/
theorem mergeStart_relay (m : ReturnMerge) (h : m.control ≠ []) : (mergeStart m).relay = m.relay := by
  unfold mergeStart; split
  · split
    · rfl
    · next hc _ => exact absurd hc h
    · rfl
  · rfl

/-- A start moves a control-origin frame and loses none. -/
theorem mergeStart_controlOrigin (m : ReturnMerge) : controlOrigin (mergeStart m) = controlOrigin m := by
  unfold mergeStart
  split
  · next hs =>
    have hn : m.sending = none := by simp at hs; exact hs.1
    split <;> simp [controlOrigin, *]
  · rfl

theorem mergeEnter_linkUp (f : ControlFrame) (m : ReturnMerge) : (mergeEnter f m).linkUp = m.linkUp := by
  simp [mergeEnter, mergeStart_linkUp]

theorem mergeEnter_relay (f : ControlFrame) (m : ReturnMerge) : (mergeEnter f m).relay = m.relay := by
  simp [mergeEnter, mergeStart_relay]

theorem mergeEnter_counters (f : ControlFrame) (m : ReturnMerge) : (mergeEnter f m).counters = m.counters := by
  simp [mergeEnter, mergeStart_counters]

theorem mergeEnter_reserved (f : ControlFrame) (m : ReturnMerge) : (mergeEnter f m).reserved = m.reserved := by
  simp [mergeEnter, mergeStart_reserved]

/-- An entry adds its frame at the tail (R161). -/
theorem mergeEnter_controlOrigin (f : ControlFrame) (m : ReturnMerge) :
    controlOrigin (mergeEnter f m) = controlOrigin m ++ [f] := by
  rw [mergeEnter, mergeStart_controlOrigin]; simp [controlOrigin]

theorem mergeResponse_linkUp (f : ControlFrame) (m : ReturnMerge) : (mergeResponse f m).linkUp = m.linkUp := by
  unfold mergeResponse; split
  · rw [mergeEnter_linkUp]
  · rfl

theorem mergeResponse_relay (f : ControlFrame) (m : ReturnMerge) : (mergeResponse f m).relay = m.relay := by
  unfold mergeResponse; split
  · rw [mergeEnter_relay]
  · rfl

/-- A response is counted only where it is discarded (R164). -/
theorem mergeResponse_counters (f : ControlFrame) (m : ReturnMerge) :
    (mergeResponse f m).counters =
      if m.linkUp then m.counters else m.counters.bump MergeCounter.controlDiscards.ix 1 := by
  unfold mergeResponse; split
  · rw [mergeEnter_counters]
  · rfl

/-- A response gives up its reservation (R157, R161). -/
theorem mergeResponse_reserved (f : ControlFrame) (m : ReturnMerge) : (mergeResponse f m).reserved = false := by
  unfold mergeResponse; split
  · rw [mergeEnter_reserved]
  · rfl

/-! ## Departure -/

/-- The departure of a record reaches the Notice Unit, one control output queue and the owed marks alone. -/
theorem depart_settled (s : State) : Settled s (depart s) := by
  unfold depart
  split
  · split
    · refine Settled.trans ?_ (takeOwed_settled _)
      exact Settled.trans (settled_notice s _ _ _ _)
        (settled_merge _ _ _ (mergeEnter_relay _ _) (mergeEnter_linkUp _ _) fun _ => mergeEnter_counters _ _)
    · exact .refl _
  · exact .refl _

theorem departNew_settled (s₀ s : State) : Settled s (departNew s₀ s) := by
  unfold departNew; split
  · exact depart_settled _
  · exact .refl _

/-- Whether a record may leave rests on the route, the Return Merges and whether a record waits (R190). -/
theorem noticeReady_congr {s t : State} (hr : t.notice.route = s.notice.route)
    (hq : t.notice.queue = [] ↔ s.notice.queue = []) (hm : t.merge = s.merge) : noticeReady t = noticeReady s := by
  unfold noticeReady State.mergeOf; rw [hr, hm]
  cases s.notice.route <;> cases h₁ : t.notice.queue <;> cases h₂ : s.notice.queue <;> simp_all

/-- A departure whose conditions do not hold changes nothing. -/
theorem depart_notReady {s : State} (h : noticeReady s = false) : depart s = s := by
  unfold depart; split
  · rw [if_neg (by simp [h])]
  · rfl

theorem noticeReady_empty {s : State} (h : s.notice.queue = []) : noticeReady s = false := by
  unfold noticeReady; rw [h]; split <;> simp_all

/-- What an event leaves whose only way to a departure is the rises of context `c` (R187, R190). -/
theorem departNew_rises (c : CtxIx) {s₀ u : State} (hr : u.notice.route = s₀.notice.route)
    (hq : u.notice.queue = s₀.notice.queue) (hm : u.merge = s₀.merge) :
    RisesHandled c (s₀.ctx c).flags u (departNew s₀ (reportRises c s₀ u)) := by
  rw [reportRises_eq]
  unfold RisesHandled
  simp only
  generalize enabledRises c (s₀.ctx c).flags u = fs
  refine ⟨fun h => ?_, fun h => ?_⟩
  · have e : noticeReady (takeRises c fs u) = noticeReady s₀ :=
      noticeReady_congr hr (by simp [takeRises, h, ← hq]) hm
    unfold departNew noticeNew; rw [e]; simp
  · have e : noticeReady s₀ = false := noticeReady_empty (hq ▸ h)
    show Host.Outcome.next (depart _) = _
    unfold departNew noticeNew; rw [e]
    split
    · rfl
    · next hn => rw [depart_notReady (by simpa using hn)]

/-- What an event leaves whose only way to a departure is the rise of a device flag (R187, R190). -/
theorem departNew_device (f : DevFlag) {s₀ u : State} (hr : u.notice.route = s₀.notice.route)
    (hq : u.notice.queue = s₀.notice.queue) (hm : u.merge = s₀.merge) :
    DeviceRiseHandled f u (departNew s₀ (raiseDevice f u)) := by
  have quiet : ∀ x : State, x.notice.route = u.notice.route → (x.notice.queue = [] ↔ u.notice.queue = []) →
      x.merge = u.merge → departNew s₀ x = x := fun x h₁ h₂ h₃ => by
    have e : noticeReady x = noticeReady s₀ := noticeReady_congr (h₁.trans hr) (hq ▸ h₂) (h₃.trans hm)
    unfold departNew noticeNew; rw [e]; simp
  have h64 : (u.notice.queue.length < noticePlaces) = ¬ 64 ≤ u.notice.queue.length := by
    simp only [noticePlaces, Nat.not_le]
  unfold DeviceRiseHandled raiseDevice
  simp only [State.setNotice_notice, h64]
  split
  · exact quiet _ rfl Iff.rfl rfl
  · split
    · by_cases hl : 64 ≤ u.notice.queue.length
      · rw [if_pos hl, if_neg (by simp [hl])]
        exact quiet _ rfl Iff.rfl rfl
      · rw [if_neg hl, if_pos hl]
        by_cases h0 : u.notice.queue = []
        · have k : ∀ x : State, depart x = departNew s₀ x := fun x => by
            unfold departNew noticeNew; rw [noticeReady_empty (hq ▸ h0 : s₀.notice.queue = [])]
            split
            · rfl
            · next hn => rw [depart_notReady (by simpa using hn)]
          rw [if_pos h0]
          show Host.Outcome.next (depart _) = _
          rw [k]
          simp only [queueRecord, makeRecord, State.setNotice, h0, List.nil_append]
        · rw [if_neg h0]
          exact quiet _ rfl (by simp [queueRecord, h0]) rfl
    · exact quiet _ rfl Iff.rfl rfl

/-- The departure of a record reaches the Notice Unit, the Return Merges and the context records alone. -/
theorem depart_frame (s : State) :
    depart s = { s with notice := (depart s).notice, merge := (depart s).merge, ctxs := (depart s).ctxs } := by
  have h : ∀ x : State, takeOwed x = { x with notice := (takeOwed x).notice, ctxs := (takeOwed x).ctxs } := fun x => by
    unfold takeOwed; repeat' split
    all_goals rfl
  unfold depart; split
  · split
    · rw [h]; rfl
    · rfl
  · rfl

theorem departNew_frame (s₀ s : State) :
    departNew s₀ s =
      { s with notice := (departNew s₀ s).notice, merge := (departNew s₀ s).merge, ctxs := (departNew s₀ s).ctxs } := by
  unfold departNew; split
  · exact depart_frame s
  · rfl

/-- The Notice Unit's action on rises reads the context's record, the Notice Unit and the number of FREE slots, and writes the
Notice Unit and the record's owed marks. -/
theorem takeRises_congr (c : CtxIx) (fs : List CtxFlag) {u w : State} (hc : w.ctxs = u.ctxs) (hn : w.notice = u.notice)
    (hk : w.ks.freeSlots = u.ks.freeSlots) :
    takeRises c fs w = { w with ctxs := (takeRises c fs u).ctxs, notice := (takeRises c fs u).notice } := by
  have hx : w.ctx c = u.ctx c := by simp [State.ctx, hc]
  have hd : directRecord c w = directRecord c u := by funext f; simp [directRecord, hx, hk]
  simp [takeRises, hd, hx, hn, hc, State.setCtx, State.setNotice]

theorem enabledRises_congr (c : CtxIx) (b : BitVec 8) {u w : State} (hc : w.ctxs = u.ctxs) (hn : w.notice = u.notice) :
    enabledRises c b w = enabledRises c b u := by
  simp [enabledRises, State.ctx, hc, hn]

/-- An event at context `c` whose own effect is `w`, whose rises leave `v`, and whose end may let a record depart handles its
rises (R187, R190). -/
theorem rises_ownEffect (c : CtxIx) {s u v : State} (hn : u.notice = s.notice) (hc : u.ctxs = put s.ctxs c (u.ctx c))
    (ho : (u.ctx c).owed = (s.ctx c).owed) (hm : v.merge = s.merge) (hk : v.ks.freeSlots = u.ks.freeSlots)
    (hvn : v.notice = (reportRises c s u).notice) (hvc : v.ctxs = (reportRises c s u).ctxs) :
    RisesHandled c (s.ctx c).flags (ownEffect c s (departNew s v)) (departNew s v) := by
  have e₁ : ownEffect c s (departNew s v) = { v with notice := s.notice, merge := s.merge, ctxs := u.ctxs } := by
    have h := ((reportRises_settled c s u).ctxs c)
    have k := ((departNew_settled s v).ctxs c)
    have hv : v.ctx c = (reportRises c s u).ctx c := by simp [State.ctx, hvc]
    rw [hv] at k
    have r : ({ (departNew s v).ctx c with owed := (s.ctx c).owed } : Ctx) = u.ctx c := by
      have e := congrArg (fun r : Ctx => { r with owed := (s.ctx c).owed }) (k.trans h)
      exact e.trans (by rw [← ho])
    unfold ownEffect
    rw [r, ← hc, departNew_frame]
  have e₂ : v = reportRises c s { v with notice := s.notice, merge := s.merge, ctxs := u.ctxs } := by
    let w : State := { v with notice := s.notice, merge := s.merge, ctxs := u.ctxs }
    have hw : reportRises c s w = { w with ctxs := v.ctxs, notice := v.notice } := by
      rw [reportRises_eq, takeRises_congr (u := u) (w := w) c _ rfl hn.symm hk,
        enabledRises_congr (u := u) (w := w) c _ rfl hn.symm, ← reportRises_eq, ← hvn, ← hvc]
    exact (hw.trans (by rw [← hm])).symm
  rw [e₁]
  conv => arg 4; rw [e₂]
  exact departNew_rises c rfl rfl rfl

/-! ## The Control Agent -/

theorem respond_settled (c : Command) (st : Status) (body : Bytes) (s : State) : Settled s (respond c st body s) := by
  unfold respond
  exact (settled_merge _ _ _ (mergeResponse_relay _ _) (mergeResponse_linkUp _ _) fun h => by
    rw [mergeResponse_counters, if_pos h]).trans (settled_agent _ _ _ _ _)

/-- The agent's reserved place is given up as its response enters, so an answer makes no departure possible (R157, R161). -/
theorem noticeReady_respond {c : Command} {st : Status} {body : Bytes} {s : State}
    (h : noticeReady (respond c st body s) = true) : noticeReady s = true := by
  have hs : ∀ m : ReturnMerge, placesUsed (mergeStart m) = placesUsed m := fun m => by
    unfold mergeStart; split
    · next hn => have : m.sending = none := by simpa using (Bool.and_eq_true_iff.mp hn).1
                 split <;> simp_all [placesUsed]
    · rfl
  have hp : ∀ m f, placesUsed m ≤ placesUsed (mergeResponse f m) ∨ m.linkUp = false := fun m f => by
    by_cases hl : m.linkUp = true
    · left; rw [mergeResponse, if_pos hl, mergeEnter, hs]
      simp only [placesUsed, List.length_append, List.length_singleton]; repeat' split
      all_goals simp_all; try omega
    · right; simpa using hl
  unfold noticeReady respond at h
  simp only [State.setAgent_notice, State.setMerge_notice, State.setAgent_mergeOf] at h
  unfold noticeReady
  split at h
  · next r n rest hr hq =>
    by_cases e : r.lane = c.lane
    · rw [e, State.setMerge_mergeOf_same, mergeResponse_linkUp] at h
      obtain ⟨hl, hroom⟩ := Bool.and_eq_true_iff.mp h
      rw [e]
      simp only [hl, Bool.true_and]
      rcases hp (s.mergeOf c.lane) ⟨responseFrame s c st body, false⟩ with hle | hf
      · simp only [hasRoom, decide_eq_true_eq] at hroom ⊢; omega
      · rw [hf] at hl; cases hl
    · rw [State.setMerge_mergeOf, if_neg e] at h; exact h
  · exact absurd h (by simp)

theorem beginHead_settled (s : State) : Settled s (beginHead s) := by
  unfold beginHead
  split
  · exact .refl _
  · next f rest _ =>
    have h₁ : Settled s ((s.setAgent { s.agent with intake := rest, serial := s.agent.serial + 1 }).setMerge f.lane
        { s.mergeOf f.lane with reserved := true }) :=
      (settled_agent s _ _ _ _).trans (settled_merge _ _ _ rfl rfl fun _ => rfl)
    simp only
    split
    · exact h₁.trans (respond_settled _ _ _ _)
    · split
      · exact h₁.trans (settled_agent _ _ _ _ _)
      · exact h₁.trans (settled_agent _ _ _ _ _)

theorem purgeList_settled (fs : List IntakeFrame) (s : State) : Settled s (purgeList fs s) := by
  induction fs generalizing s with
  | nil => exact .refl _
  | cons f fs ih =>
    unfold purgeList
    split
    · exact ((settled_agent s _ _ _ _).trans (raiseDevice_settled _ _)).trans (ih _)
    · exact .refl _

theorem purge_settled (s : State) : Settled s (purge s) := by
  unfold purge; split
  · exact purgeList_settled _ _
  · exact .refl _

theorem agentLoop_settled (n : Nat) (s : State) : Settled s (agentLoop n s) := by
  induction n generalizing s with
  | zero => exact .refl _
  | succ n ih =>
    unfold agentLoop
    split
    · exact ((purge_settled s).trans (beginHead_settled _)).trans (ih _)
    · exact purge_settled s

theorem agentRun_settled (s : State) : Settled s (agentRun s) := agentLoop_settled _ _

theorem endLoop_settled (n : Nat) (s₀ s : State) : Settled s (endLoop n s₀ s) := by
  induction n generalizing s with
  | zero => exact departNew_settled _ _
  | succ n ih =>
    unfold endLoop
    refine Settled.trans (purge_settled s) ?_
    simp only
    repeat' split
    · exact ((settled_drawn _).trans (depart_settled _)).trans (agentRun_settled _)
    · exact ((settled_drawn _).trans (beginHead_settled _)).trans (ih _)
    · exact (beginHead_settled _).trans (ih _)
    · exact departNew_settled _ _

/-- The end of an event changes nothing that `Settled` fixes. -/
theorem settle_settled (s₀ s : State) : Settled s (settle s₀ s) := endLoop_settled _ _ _

/-- The end of an event looks at the event's beginning only to tell whether a departure was possible then (R190). -/
theorem settle_congr {a b : State} (h : noticeReady a = noticeReady b) (s : State) : settle a s = settle b s := by
  have hn : noticeNew a = noticeNew b := by funext x; simp [noticeNew, h]
  have hd : departNew a = departNew b := by funext x; simp [departNew, hn]
  have : ∀ n x, endLoop n a x = endLoop n b x := by
    intro n
    induction n with
    | zero => intro x; simp [endLoop, hd]
    | succ n ih => intro x; simp [endLoop, hd, hn, ih]
  exact this _ _

/-! ## A control-origin frame, once in place, stays through the end of an event -/

/-- Every control-origin frame of every lane is still there. -/
def KeepsFrames (s t : State) : Prop := ∀ l f, f ∈ controlOrigin (s.mergeOf l) → f ∈ controlOrigin (t.mergeOf l)

theorem KeepsFrames.refl (s : State) : KeepsFrames s s := fun _ _ h => h

theorem KeepsFrames.trans {a b c : State} (h : KeepsFrames a b) (k : KeepsFrames b c) : KeepsFrames a c :=
  fun l f hf => k l f (h l f hf)

theorem keepsFrames_of_merge {s t : State} (h : t.merge = s.merge) : KeepsFrames s t := fun l f hf => by
  simpa [State.mergeOf, h] using hf

/-- Replacing one Return Merge by one that has at least its frames. -/
theorem keepsFrames_setMerge (s : State) (l : Lane) (m : ReturnMerge)
    (h : ∀ f, f ∈ controlOrigin (s.mergeOf l) → f ∈ controlOrigin m) : KeepsFrames s (s.setMerge l m) := fun k f hf => by
  rw [State.setMerge_mergeOf]
  split
  · next e => subst e; exact h f hf
  · exact hf

theorem queueRecord_merge (n : NoticeRecord) (s : State) : (queueRecord n s).merge = s.merge := rfl

theorem raiseDevice_merge (f : DevFlag) (s : State) : (raiseDevice f s).merge = s.merge := by
  unfold raiseDevice; simp only; repeat' split
  all_goals rfl

theorem takeOwed_merge (s : State) : (takeOwed s).merge = s.merge := by
  unfold takeOwed; repeat' split
  all_goals rfl

theorem depart_keepsFrames (s : State) : KeepsFrames s (depart s) := by
  unfold depart
  split
  · split
    · refine KeepsFrames.trans ?_ (keepsFrames_of_merge (takeOwed_merge _))
      refine KeepsFrames.trans (keepsFrames_of_merge (t := s.setNotice _) rfl) (keepsFrames_setMerge _ _ _ fun f hf => ?_)
      rw [mergeEnter_controlOrigin]
      exact List.mem_append_left _ hf
    · exact .refl _
  · exact .refl _

theorem departNew_keepsFrames (s₀ s : State) : KeepsFrames s (departNew s₀ s) := by
  unfold departNew; split
  · exact depart_keepsFrames _
  · exact .refl _

theorem mergeResponse_controlOrigin (f : ControlFrame) (m : ReturnMerge) :
    controlOrigin (mergeResponse f m) = if m.linkUp then controlOrigin m ++ [f] else controlOrigin m := by
  unfold mergeResponse; split
  · rw [mergeEnter_controlOrigin]; rfl
  · rfl

theorem respond_keepsFrames (c : Command) (st : Status) (body : Bytes) (s : State) :
    KeepsFrames s (respond c st body s) := by
  unfold respond
  refine KeepsFrames.trans (keepsFrames_setMerge s _ _ fun f hf => ?_) (keepsFrames_of_merge rfl)
  rw [mergeResponse_controlOrigin]
  split
  · exact List.mem_append_left _ hf
  · exact hf

theorem beginHead_keepsFrames (s : State) : KeepsFrames s (beginHead s) := by
  unfold beginHead
  split
  · exact .refl _
  · have h₁ : ∀ (a : Agent) (l : Lane), KeepsFrames s ((s.setAgent a).setMerge l { s.mergeOf l with reserved := true }) :=
      fun a l => (keepsFrames_of_merge (t := s.setAgent a) rfl).trans (keepsFrames_setMerge _ _ _ fun f hf => hf)
    split
    · exact (h₁ _ _).trans (respond_keepsFrames _ _ _ _)
    · simp only
      split
      · exact (h₁ _ _).trans (keepsFrames_of_merge rfl)
      · exact (h₁ _ _).trans (keepsFrames_of_merge rfl)

theorem purgeList_merge (fs : List IntakeFrame) (s : State) : (purgeList fs s).merge = s.merge := by
  induction fs generalizing s with
  | nil => rfl
  | cons f fs ih =>
    unfold purgeList
    split
    · rw [ih, raiseDevice_merge]; rfl
    · rfl

theorem purge_keepsFrames (s : State) : KeepsFrames s (purge s) := by
  unfold purge; split
  · exact keepsFrames_of_merge (purgeList_merge _ _)
  · exact .refl _

theorem agentRun_keepsFrames (s : State) : KeepsFrames s (agentRun s) := by
  unfold agentRun
  generalize s.agent.intake.length + 1 = n
  induction n generalizing s with
  | zero => exact .refl _
  | succ n ih =>
    unfold agentLoop
    split
    · exact ((purge_keepsFrames s).trans (beginHead_keepsFrames _)).trans (ih _)
    · exact purge_keepsFrames s

theorem settle_keepsFrames (s₀ s : State) : KeepsFrames s (settle s₀ s) := by
  have hd : ∀ x : State, KeepsFrames x (drawn x) := fun x => keepsFrames_of_merge rfl
  unfold settle
  generalize s.agent.intake.length + 1 = n
  induction n generalizing s with
  | zero => exact departNew_keepsFrames _ _
  | succ n ih =>
    unfold endLoop
    refine KeepsFrames.trans (purge_keepsFrames s) ?_
    simp only
    repeat' split
    · exact ((hd _).trans (depart_keepsFrames _)).trans (agentRun_keepsFrames _)
    · exact ((hd _).trans (beginHead_keepsFrames _)).trans (ih _)
    · exact (beginHead_keepsFrames _).trans (ih _)
    · exact departNew_keepsFrames _ _

/-! ## An empty intake -/

/-- The agent with an empty intake is left as it is. -/
theorem purge_empty {s : State} (h : s.agent.intake = []) : purge s = s := by
  unfold purge; rw [h]; simp [purgeList]

theorem queueRecord_agent (n : NoticeRecord) (s : State) : (queueRecord n s).agent = s.agent := rfl

theorem takeOwed_agent (s : State) : (takeOwed s).agent = s.agent := by
  unfold takeOwed; repeat' split
  all_goals rfl

theorem depart_agent (s : State) : (depart s).agent = s.agent := by
  unfold depart; repeat' split
  all_goals first | rfl | exact takeOwed_agent _

theorem departNew_agent (s₀ s : State) : (departNew s₀ s).agent = s.agent := by
  unfold departNew; split
  · exact depart_agent _
  · rfl

/-- With an empty intake the end of an event is a departure at most. -/
theorem settle_empty (s₀ s : State) (h : s.agent.intake = []) : settle s₀ s = departNew s₀ s := by
  unfold settle; rw [h]
  simp [endLoop, purge_empty h, agentReady, h]

theorem settle_agent_empty (s₀ s : State) (h : s.agent.intake = []) : (settle s₀ s).agent = s.agent := by
  rw [settle_empty _ _ h, departNew_agent]

/-- A departure counts nothing at a Return Merge and reserves no place. -/
theorem depart_merge (s : State) (l : Lane) : ((depart s).mergeOf l).counters = (s.mergeOf l).counters ∧
    ((depart s).mergeOf l).reserved = (s.mergeOf l).reserved := by
  unfold depart
  split
  · split
    · next r _ _ _ _ _ =>
      simp only [State.mergeOf, takeOwed_merge]
      show (((s.setMerge r.lane _).mergeOf l).counters = _) ∧ (((s.setMerge r.lane _).mergeOf l).reserved = _)
      rw [State.setMerge_mergeOf]
      split
      · next h => subst h; exact ⟨mergeEnter_counters _ _, mergeEnter_reserved _ _⟩
      · exact ⟨rfl, rfl⟩
    · exact ⟨rfl, rfl⟩
  · exact ⟨rfl, rfl⟩

theorem departNew_merge (s₀ s : State) (l : Lane) : ((departNew s₀ s).mergeOf l).counters = (s.mergeOf l).counters ∧
    ((departNew s₀ s).mergeOf l).reserved = (s.mergeOf l).reserved := by
  unfold departNew; split
  · exact depart_merge _ _
  · exact ⟨rfl, rfl⟩

/-! ## Answers -/

theorem respond_frame (c : Command) (st : Status) (body : Bytes) (s : State) (h : (s.mergeOf c.lane).linkUp = true) :
    (⟨responseFrame s c st body, false⟩ : ControlFrame) ∈ controlOrigin ((respond c st body s).mergeOf c.lane) := by
  show _ ∈ controlOrigin ((s.setMerge c.lane _).mergeOf c.lane)
  rw [State.setMerge_mergeOf_same, mergeResponse_controlOrigin, if_pos h]
  simp

theorem responseFrame_settled {s t : State} (h : Settled s t) (c : Command) (st : Status) (body : Bytes) :
    responseFrame t c st body = responseFrame s c st body := by
  simp [responseFrame, controlFrame, h.ks, h.address]

/-- Effects beside the agent and the Return Merges that `Settled` leaves open do not touch the answer. -/
theorem Answered.mono {u v t : State} {c : Command} {st : Status} {body : Bytes} (h : Settled u v) (ha : v.agent = u.agent)
    (hm : v.merge = u.merge) (k : Answered v c st body t) : Answered u c st body t where
  settled := h.trans k.settled
  response hl := by
    have := k.response (by rw [h.linkUp]; exact hl)
    rwa [responseFrame_settled h] at this
  idle hi := k.idle (by rw [ha]; exact hi)
  executed hi := by rw [k.executed (by rw [ha]; exact hi), ha]
  discarded hi l := by
    have := k.discarded (by rw [ha]; exact hi) l
    simpa only [State.mergeOf, hm] using this

/-- What the end of an event that has built a response may do to it: the rest settles, control-origin frames stay, and with an
empty intake the agent stays as it is and no Return Merge counts or reserves. -/
structure EndsFrom (s t : State) : Prop where
  settled : Settled s t
  keeps : KeepsFrames s t
  agent : s.agent.intake = [] → t.agent = s.agent
  merge : s.agent.intake = [] → ∀ l, (t.mergeOf l).counters = (s.mergeOf l).counters ∧
    (t.mergeOf l).reserved = (s.mergeOf l).reserved

theorem settle_ends (s₀ s : State) : EndsFrom s (settle s₀ s) :=
  ⟨settle_settled _ _, settle_keepsFrames _ _, settle_agent_empty _ _, fun h l => by
    rw [settle_empty _ _ h]; exact departNew_merge _ _ l⟩

/-- An agent with an empty intake begins nothing. -/
theorem agentRun_empty {s : State} (h : s.agent.intake = []) : agentRun s = s := by
  unfold agentRun; rw [h]; simp [agentLoop, purge_empty h, agentReady, h]

theorem agentRun_ends (s : State) : EndsFrom s (agentRun s) :=
  ⟨agentRun_settled _, agentRun_keepsFrames _, fun h => by rw [agentRun_empty h], fun h l => by
    rw [agentRun_empty h]; exact ⟨rfl, rfl⟩⟩

/-- What answering a command leaves, whatever else its event does. -/
theorem answer_answered (s₀ : State) (c : Command) (st : Status) (body : Bytes) (s : State) :
    Answered s c st body (answer s₀ c st body s) := by
  have key : ∀ (x t : State), Settled s x → x.agent = s.agent → (∀ l, (x.mergeOf l).counters = (s.mergeOf l).counters) →
      EndsFrom (respond c st body x) t → Answered s c st body t := fun x t hx ha hm he =>
    have hr : ((respond c st body x).mergeOf c.lane) =
        mergeResponse ⟨responseFrame x c st body, false⟩ (x.mergeOf c.lane) := by
      show ((x.setMerge c.lane _).mergeOf c.lane) = _
      rw [State.setMerge_mergeOf_same]
    have hi : s.agent.intake = [] → (respond c st body x).agent.intake = [] := fun h => by
      simp [respond, Agent.count, ha, h]
    { settled := hx.trans ((respond_settled _ _ _ _).trans he.settled)
      response := fun hl => he.keeps _ _ <| by
        have := respond_frame c st body x (by rw [hx.linkUp]; exact hl)
        rwa [responseFrame_settled hx] at this
      idle := fun h => by
        rw [(he.agent (hi h)), (he.merge (hi h) _).2, hr, mergeResponse_reserved]
        exact ⟨rfl, rfl⟩
      executed := fun h => by
        rw [he.agent (hi h)]
        simp [respond, Agent.count, ha]
      discarded := fun h l => by
        rw [(he.merge (hi h) _).1]
        by_cases e : l = c.lane
        · subst e
          rw [hr, mergeResponse_counters, hm, hx.linkUp]
          cases (s.mergeOf c.lane).linkUp <;> simp
        · have : (respond c st body x).mergeOf l = x.mergeOf l := by
            show (x.setMerge c.lane _).mergeOf l = _
            rw [State.setMerge_mergeOf, if_neg e]
          rw [this, hm, if_neg (fun h => e h.1)] }
  unfold answer
  split
  · split
    · exact key _ _ ((settled_drawn s).trans (depart_settled _)) (by rw [depart_agent]; rfl)
        (fun l => (depart_merge _ l).1) (agentRun_ends _)
    · exact key _ _ (settled_drawn s) rfl (fun _ => rfl) (settle_ends _ _)
  · exact key _ _ (.refl _) rfl (fun _ => rfl) (settle_ends _ _)

/-- A command answered in the event of its rises handles them, where no departure and no begin can join in (R187). -/
theorem answer_risesQueued (x : CtxIx) (c : Command) (st : Status) (body : Bytes) {s u v : State} (hn : u.notice = s.notice)
    (hc : u.ctxs = put s.ctxs x (u.ctx x)) (ho : (u.ctx x).owed = (s.ctx x).owed) (hm : v.merge = s.merge)
    (ha : v.agent.intake = s.agent.intake) (hk : v.ks.freeSlots = u.ks.freeSlots)
    (hvn : v.notice = (reportRises x s u).notice) (hvc : v.ctxs = (reportRises x s u).ctxs) :
    RisesQueued x s (answer s c st body v) := by
  intro hi hq
  let w := ownEffect x s (answer s c st body v)
  show _ = (takeRises x (enabledRises x (s.ctx x).flags w) w).notice ∧
    _ = (takeRises x (enabledRises x (s.ctx x).flags w) w).ctxs
  have hr : v.notice.route = s.notice.route := by
    rw [hvn, reportRises_eq, ← hn]; rfl
  have hlen : ∃ l, v.notice.queue = s.notice.queue ++ l := ⟨_, by rw [hvn, reportRises_eq, ← hn]; rfl⟩
  have hready : noticeReady v = noticeReady s := by
    rcases hq with hq | hq
    · obtain ⟨l, hl⟩ := hlen
      exact noticeReady_congr hr (by simp [hl, hq]) hm
    · rw [← hr] at hq
      simp only [noticeReady, hq, hr ▸ hq]
  have hnew : noticeNew s v = false := by rw [noticeNew, hready]; simp
  have e : answer s c st body v = respond c st body v := by
    have hrs : (respond c st body v).agent.intake = [] := by rw [← hi, ← ha]; rfl
    rw [answer, hnew, Bool.false_and, if_neg (by simp), settle_empty _ _ hrs, departNew, if_neg]
    intro hx
    obtain ⟨h₁, h₂⟩ := Bool.and_eq_true_iff.mp hx
    have h₃ := hready ▸ noticeReady_respond h₂
    simp [h₃] at h₁
  have hx : v.ctx x = (reportRises x s u).ctx x := by simp [State.ctx, hvc]
  have hw : w.ctxs = u.ctxs := by
    have k := (reportRises_settled x s u).ctxs x
    have k := congrArg (fun r : Ctx => { r with owed := (s.ctx x).owed }) k
    show put s.ctxs x { (answer s c st body v).ctx x with owed := (s.ctx x).owed } = u.ctxs
    rw [e, hc]
    refine congrArg (put s.ctxs x) (Eq.trans (b := { (reportRises x s u).ctx x with owed := (s.ctx x).owed }) ?_ ?_)
    · rw [← hx]; rfl
    · exact k.trans (by rw [← ho])
  have hks : w.ks.freeSlots = u.ks.freeSlots := by rw [← hk]; show (answer s c st body v).ks.freeSlots = _; rw [e]; rfl
  have hz : takeRises x (enabledRises x (s.ctx x).flags w) w = { w with ctxs := v.ctxs, notice := v.notice } := by
    rw [takeRises_congr x _ hw hn.symm hks, enabledRises_congr x _ hw hn.symm, ← reportRises_eq, ← hvn, ← hvc]
  rw [hz, e]
  exact ⟨rfl, rfl⟩

/-! ## Taking a command -/

/-- A command that waits to be taken is taken by its row, and by no other. -/
theorem takeCommand_begun {code : Nat} {s : State} {c : Command} (h : begunCommand code s = some c)
    (act : Command → State → Taken) :
    takeCommand code act s =
      match act c s with
      | .refuse st => answer s c st [] s
      | .done st body s₁ => answer s c st body s₁
      | .waits stage s₁ => settle s (setStage c stage s₁) := by
  cases ha : act c s <;> simp [takeCommand, h, ha]

/-- A row whose command does not wait to be taken changes nothing. -/
theorem takeCommand_absent {code : Nat} {s : State} (h : begunCommand code s = none) (act : Command → State → Taken) :
    takeCommand code act s = s := by
  simp [takeCommand, h]

/-- A command that ends in the event that takes it leaves its own effect answered (R155). -/
theorem takeCommand_done {code : Nat} {s u : State} {c : Command} {act : Command → State → Taken} {st : Status} {body : Bytes}
    (h : begunCommand code s = some c) (ha : act c s = .done st body u) : Answered u c st body (takeCommand code act s) := by
  rw [takeCommand_begun h, ha]; exact answer_answered _ _ _ _ _

/-- A command refused leaves every block as it was and is answered with an empty body (R154). -/
theorem takeCommand_refuse {code : Nat} {s : State} {c : Command} {act : Command → State → Taken} {st : Status}
    (h : begunCommand code s = some c) (ha : act c s = .refuse st) : Answered s c st [] (takeCommand code act s) := by
  rw [takeCommand_begun h, ha]; exact answer_answered _ _ _ _ _

/-- A command that ends later leaves its effect and the new stage (R155). -/
theorem takeCommand_waits {code : Nat} {s u : State} {c : Command} {act : Command → State → Taken} {stage : Stage}
    (h : begunCommand code s = some c) (ha : act c s = .waits stage u) :
    Settled (setStage c stage u) (takeCommand code act s) := by
  rw [takeCommand_begun h, ha]; exact settle_settled _ _

end Sys2Proof.Machine
end

