-- ==== Sys2Proof/Laws/Keys.lean ====
section
/-! SUPPORT. What the shared operations over key slots, switches, campus queues and unwrap jobs can do. -/

namespace Sys2Proof.Machine

/-! ## Requests to slots (R68, R69) -/

/-- A request to a slot reaches that slot alone, and only when its owner fields agree (R68). -/
theorem slotRequest_slot (k j : SlotIx) (c : CtxIx) (g : Gen) (f : Slot → Slot) (s : State) :
    (slotRequest k c g f s).slot j = if j = k ∧ slotAccepts (s.slot k) c g = true then f (s.slot k) else s.slot j := by
  unfold slotRequest
  by_cases h : slotAccepts (s.slot k) c g = true
  · simp only [h, if_true, and_true, State.setSlot_slot]
  · simp [h]

/-- A request to a slot changes the slots and nothing else. -/
theorem slotRequest_frame (k : SlotIx) (c : CtxIx) (g : Gen) (f : Slot → Slot) (s : State) :
    slotRequest k c g f s = { s with ks := { s.ks with slots := (slotRequest k c g f s).ks.slots } } := by
  unfold slotRequest; split <;> rfl

@[simp] theorem slotRequest_ctxs (k : SlotIx) (c : CtxIx) (g : Gen) (f : Slot → Slot) (s : State) :
    (slotRequest k c g f s).ctxs = s.ctxs := by rw [slotRequest_frame]

@[simp] theorem releaseRef_ctxs (k : Option SlotIx) (c : CtxIx) (g : Gen) (s : State) : (releaseRef k c g s).ctxs = s.ctxs := by
  cases k
  · rfl
  · exact slotRequest_ctxs _ _ _ _ _

theorem releaseRef_frame (k : Option SlotIx) (c : CtxIx) (g : Gen) (s : State) :
    releaseRef k c g s = { s with ks := { s.ks with slots := (releaseRef k c g s).ks.slots } } := by
  cases k
  · rfl
  · exact slotRequest_frame _ _ _ _ _

/-- A release leaves no slot CURRENT or READY that it reaches (R69). -/
theorem releaseSlot_released (k : Slot) : (releaseSlot k).state ≠ .current ∧ (releaseSlot k).state ≠ .ready := by
  rcases k with ⟨st, ow, sa, ke, inf, key⟩
  cases st <;> simp [releaseSlot, startScrub]
  by_cases h : inf = 0 <;> simp [h]

/-! ## Releases of many contexts in one event (R41, R42) -/

/-- Releases of many contexts reach the slots and nothing else. -/
theorem releaseAll_frame (reached : Ctx → Bool) (s : State) :
    releaseAll reached s = { s with ks := { s.ks with slots := (releaseAll reached s).ks.slots } } := rfl

theorem releaseAll_slot (reached : Ctx → Bool) (s : State) (k : SlotIx) :
    (releaseAll reached s).slot k = releaseNamed reached s k.val (s.slot k) := by
  simp [releaseAll, State.slot, State.setKs]

/-- A slot is released exactly when its owner is reached, holds the slot under its present generation and names it. -/
theorem releaseNamed_eq (reached : Ctx → Bool) (s : State) (i : Nat) {k : Slot} {c : CtxIx} {g : Gen}
    (h : k.owner = some (c, g)) :
    releaseNamed reached s i k =
      if reached (s.ctx c) = true ∧ (s.ctx c).generation = g ∧ refersTo (s.ctx c) i = true ∧ k.state ≠ .free ∧
        k.state ≠ .scrubbing then releaseSlot k else k := by
  unfold releaseNamed slotAccepts
  rw [h]
  simp [and_assoc]

/-! ## An event at one context and the slots it names -/

/-- `t` is `s` but for the record of context `c` and the slots. -/
structure AtContext (c : CtxIx) (s t : State) : Prop where
  frame : t = { s with ctxs := t.ctxs, ks := { s.ks with slots := t.ks.slots } }
  other : ∀ x, x ≠ c → t.ctx x = s.ctx x

theorem AtContext.refl (c : CtxIx) (s : State) : AtContext c s s := ⟨rfl, fun _ _ => rfl⟩

theorem AtContext.trans {c : CtxIx} {a b d : State} (h : AtContext c a b) (k : AtContext c b d) : AtContext c a d where
  frame := by rw [k.frame, h.frame]
  other x hx := (k.other x hx).trans (h.other x hx)

theorem AtContext.setCtx (c : CtxIx) (s : State) (r : Ctx) : AtContext c s (s.setCtx c r) :=
  ⟨rfl, fun _ hx => State.setCtx_ctx_ne s r hx⟩

theorem AtContext.slotRequest (c : CtxIx) (k : SlotIx) (g : Gen) (f : Slot → Slot) (s : State) :
    AtContext c s (slotRequest k c g f s) where
  frame := by rw [slotRequest_frame]
  other x _ := by simp [State.ctx]

theorem AtContext.releaseRef (c : CtxIx) (k : Option SlotIx) (g : Gen) (s : State) :
    AtContext c s (releaseRef k c g s) where
  frame := by rw [releaseRef_frame]
  other x _ := by simp [State.ctx]

/-! ## Switching (R88, R89), hard events (R53) and soft crossings (R52) -/

/-- A switch writes the record of its context as R88 and R90 state. -/
theorem switchCtx_ctx {c : CtxIx} {s : State} {k : SlotIx} (h : (s.ctx c).next = some (k, .ready)) :
    (switchCtx c s).ctx c = switchedRecord (s.ctx c) k := by
  unfold switchCtx; rw [h]; simp

theorem switchCtx_at (c : CtxIx) (s : State) : AtContext c s (switchCtx c s) := by
  unfold switchCtx
  split
  · exact ((AtContext.releaseRef _ _ _ _).trans (AtContext.slotRequest _ _ _ _ _)).trans (AtContext.setCtx _ _ _)
  · exact .refl _ _

/-- A context that enters HALTED holds the record of R29. -/
theorem enterHalted_ctx (c : CtxIx) (s : State) : (enterHalted c s).ctx c = haltedRecord (s.ctx c) := by
  simp [enterHalted]

theorem enterHalted_at (c : CtxIx) (s : State) : AtContext c s (enterHalted c s) :=
  (AtContext.releaseRef _ _ _ _).trans (AtContext.setCtx _ _ _)

theorem nextReady_iff (r : Ctx) : nextReady r = true ↔ ∃ k, r.next = some (k, .ready) := by
  rcases h : r.next with _ | ⟨k, cnd⟩ <;> simp [nextReady, h]
  cases cnd <;> simp

/-- A hard event switches with a READY next slot, and makes the context HALTED without one (R53). -/
theorem hardEvent_ctx (c : CtxIx) (s : State) :
    (∃ k, (s.ctx c).next = some (k, .ready) ∧ (hardEvent c s).ctx c = switchedRecord (s.ctx c) k) ∨
      (nextReady (s.ctx c) = false ∧ (hardEvent c s).ctx c = haltedRecord (s.ctx c)) := by
  unfold hardEvent
  by_cases h : nextReady (s.ctx c) = true
  · obtain ⟨k, hk⟩ := (nextReady_iff _).1 h
    exact .inl ⟨k, hk, by rw [if_pos h, switchCtx_ctx hk]⟩
  · exact .inr ⟨by simpa using h, by rw [if_neg h, enterHalted_ctx]⟩

theorem hardEvent_at (c : CtxIx) (s : State) : AtContext c s (hardEvent c s) := by
  unfold hardEvent; split
  · exact switchCtx_at _ _
  · exact enterHalted_at _ _

/-- A tenure's end rests on the slots and on the current slot and generation of its context. -/
theorem TenureEnded.congr {c : CtxIx} {into : Option SlotIx} {s s' t t' : State} (h : TenureEnded c into s t)
    (hs : s'.ks.slots = s.ks.slots) (hc : (s'.ctx c).current = (s.ctx c).current)
    (hg : (s'.ctx c).generation = (s.ctx c).generation) (ht : t'.ks.slots = t.ks.slots) : TenureEnded c into s' t' := by
  have e : ∀ k, s'.slot k = s.slot k := fun k => by simp [State.slot, hs]
  have f : ∀ k, t'.slot k = t.slot k := fun k => by simp [State.slot, ht]
  constructor
  · intro k; rw [hc, hg, e, f]; exact h.released k
  · intro k; rw [hc, hg, e, f]; exact h.entered k
  · intro k; rw [hc, e, f]; exact h.others k

/-- What a release of the current slot does to every slot (R69). -/
theorem releaseCurrent_slot (c : CtxIx) (s : State) (k : SlotIx) :
    (releaseRef (s.ctx c).current c (s.ctx c).generation s).slot k =
      if (s.ctx c).current = some k ∧ slotAccepts (s.slot k) c (s.ctx c).generation = true then releaseSlot (s.slot k)
      else s.slot k := by
  cases h : (s.ctx c).current with
  | none => simp [releaseRef]
  | some j =>
    rw [releaseRef, slotRequest_slot]
    by_cases e : k = j
    · subst e; simp
    · have : ¬ (some j = some k) := fun x => e (Option.some.inj x).symm
      simp [e, this]

/-- A CURRENT slot that its context releases goes to DRAINING or SCRUBBING (R69). -/
theorem releaseCurrent_current {c : CtxIx} {s : State} {k : SlotIx} (h : (s.ctx c).current = some k)
    (ho : (s.slot k).owner = some (c, (s.ctx c).generation)) (hs : (s.slot k).state = .current) :
    (releaseRef (s.ctx c).current c (s.ctx c).generation s).slot k =
      if (s.slot k).inFlight = 0 then startScrub (s.slot k) else { s.slot k with state := .draining } := by
  rw [releaseCurrent_slot, if_pos ⟨h, by simp [slotAccepts, ho, hs]⟩, releaseSlot, hs]

/-- Entry to HALTED ends the tenure at the slots (R29). -/
theorem enterHalted_ended (c : CtxIx) (s : State) : TenureEnded c none s (enterHalted c s) where
  released _ h _ ho hs := releaseCurrent_current h ho hs
  entered _ h := by cases h
  others k h _ := by
    show (releaseRef _ _ _ s).slot k = _
    rw [releaseCurrent_slot, if_neg (fun x => h x.1)]

/-- A switch ends the tenure at the slots and begins one under the next slot (R89). -/
theorem switchCtx_ended {c : CtxIx} {s : State} {n : SlotIx} (h : (s.ctx c).next = some (n, .ready)) :
    TenureEnded c (some n) s (switchCtx c s) := by
  have e : ∀ k, (switchCtx c s).slot k =
      let r := (releaseRef (s.ctx c).current c (s.ctx c).generation s)
      if k = n ∧ slotAccepts (r.slot n) c (s.ctx c).generation = true then makeCurrent (r.slot n) else r.slot k := fun k => by
    unfold switchCtx; rw [h]; exact slotRequest_slot _ _ _ _ _ _
  constructor
  · intro k hc hn ho hs
    have : k ≠ n := fun x => hn (by rw [x])
    rw [e]; simp only [this, false_and, if_false]
    exact releaseCurrent_current hc ho hs
  · intro k hn hc ho hs
    cases hn
    have hr : (releaseRef (s.ctx c).current c (s.ctx c).generation s).slot n = s.slot n := by
      rw [releaseCurrent_slot, if_neg (fun x => hc x.1)]
    rw [e]; simp only [hr]
    rw [if_pos ⟨trivial, by simp [slotAccepts, ho, hs]⟩, makeCurrent, if_pos hs]
  · intro k hc hn
    have : k ≠ n := fun x => hn (by rw [x])
    rw [e]; simp only [this, false_and, if_false]
    rw [releaseCurrent_slot, if_neg (fun x => hc x.1)]

/-- A hard event ends the tenure (R53): under the READY next slot, or without a new one. -/
theorem hardEvent_ended (c : CtxIx) (s : State) :
    (∀ n, (s.ctx c).next = some (n, .ready) → TenureEnded c (some n) s (hardEvent c s)) ∧
      (nextReady (s.ctx c) = false → TenureEnded c none s (hardEvent c s)) := by
  refine ⟨fun n h => ?_, fun h => ?_⟩
  · rw [hardEvent, if_pos ((nextReady_iff _).2 ⟨n, h⟩)]; exact switchCtx_ended h
  · rw [hardEvent, if_neg (by simp [h])]; exact enterHalted_ended c s

/-- The record of a soft crossing before any switch (R52): the mark, KEY_WANTED when no next slot is present, and the
switch-pending mark under AUTO_ROLL. -/
def crossedRecord (r : Ctx) : Ctx :=
  let r₁ : Ctx := { r with softReached := true }
  let r₂ := if r.next.isNone then r₁.raise .keyWanted else r₁
  if r.options.autoRoll then { r₂ with switchPending := true } else r₂

/-- A soft crossing leaves the crossed record, or under AUTO_ROLL with a READY next slot the switched one (R52, R94). -/
theorem softCrossing_ctx (c : CtxIx) (s : State) :
    (softCrossing c s).ctx c =
      match (s.ctx c).options.autoRoll, (s.ctx c).next with
      | true, some (k, .ready) => switchedRecord (crossedRecord (s.ctx c)) k
      | _, _ => crossedRecord (s.ctx c) := by
  generalize hr : s.ctx c = r
  rcases r with ⟨st, gen, tag, cls, ⟨ol, ct, ar⟩, cond, grp, thr, ip, cur, nx, ph, pn, bl, ag, so, sp, fl, en, ow, cs⟩
  unfold softCrossing
  rw [hr]
  cases ar <;> rcases nx with _ | ⟨k, _ | _⟩ <;>
    simp [crossedRecord, nextReady, switchCtx, Ctx.raise]

theorem softCrossing_at (c : CtxIx) (s : State) : AtContext c s (softCrossing c s) := by
  unfold softCrossing
  simp only
  repeat' split
  all_goals first
    | exact AtContext.setCtx _ _ _
    | exact (AtContext.setCtx _ _ _).trans (switchCtx_at _ _)

/-! ## Campus Queue (R121, R122, R126) -/

/-- A start moves a frame from its class queue into transmission, so no occupancy changes (R126). -/
theorem campusStart_limits (q : CampusQueue) : (campusStart q).limits = q.limits := by
  unfold campusStart; repeat' split
  all_goals rfl

theorem campusStart_linkUp (q : CampusQueue) : (campusStart q).linkUp = q.linkUp := by
  unfold campusStart; repeat' split
  all_goals rfl

theorem campusStart_counters (q : CampusQueue) : (campusStart q).counters = q.counters := by
  unfold campusStart; repeat' split
  all_goals rfl

/-- The arbiter's choice comes from the queue of its class. -/
theorem firstClass_some {q : CampusQueue} {cs : List Cls} {c : Cls} {f : CampusFrame} {rest : List CampusFrame}
    (h : firstClass q cs = some (c, f, rest)) : c ∈ cs ∧ look q.queues c = f :: rest := by
  induction cs with
  | nil => simp [firstClass] at h
  | cons d ds ih =>
    unfold firstClass at h
    split at h
    · next hq =>
      simp only [Option.some.injEq, Prod.mk.injEq] at h
      obtain ⟨rfl, rfl, rfl⟩ := h
      exact ⟨List.mem_cons_self, hq⟩
    · exact ⟨List.mem_cons_of_mem _ (ih h).1, (ih h).2⟩

theorem campusStart_classOccupancy (q : CampusQueue) (c : Cls) : classOccupancy (campusStart q) c = classOccupancy q c := by
  unfold campusStart
  split
  · next hs =>
    have hn : q.sending = none := by simp at hs; exact hs.1
    split
    · next d f rest hf =>
      have hq := (firstClass_some hf).2
      by_cases hcd : c = d
      · subst hcd
        simp [classOccupancy, hn, hq, lOutSum, Nat.add_comm]
      · have hdc : ¬ d = c := fun e => hcd e.symm
        simp [classOccupancy, hn, hdc, look_put_ne _ _ hcd]
    · rfl
  · rfl

theorem campusStart_totalOccupancy (q : CampusQueue) : totalOccupancy (campusStart q) = totalOccupancy q := by
  simp [totalOccupancy, campusStart_classOccupancy]

/-! ## Unwrap jobs (R76, R77) -/

/-- Starting jobs never lengthens the queue. -/
theorem startFrom_jobs (js : List Job) (s : State) (h : s.ks.jobs.length ≤ js.length) :
    (startFrom js s).ks.jobs.length ≤ js.length := by
  induction js generalizing s with
  | nil => exact h
  | cons j js ih =>
    unfold startFrom
    simp only
    split
    · simp
    · split
      · refine Nat.le_trans (ih _ ?_) (by simp)
        simp [failData, deliver, recordFailure]
      · refine Nat.le_trans (ih _ ?_) (by simp)
        simp

/-- Starting jobs reaches the job queue, the running job, the last-failure record and the results in transit alone. -/
theorem startFrom_frame (js : List Job) (s : State) :
    startFrom js s =
      { s with
        ks := { s.ks with jobs := (startFrom js s).ks.jobs, running := (startFrom js s).ks.running,
                          lastFailure := (startFrom js s).ks.lastFailure },
        transit := { s.transit with results := (startFrom js s).transit.results } } := by
  induction js generalizing s with
  | nil => rfl
  | cons j js ih =>
    unfold startFrom
    simp only
    split
    · rfl
    · split
      · rw [ih]; rfl
      · rw [ih]; rfl

theorem startJobs_frame (s : State) :
    startJobs s =
      { s with
        ks := { s.ks with jobs := (startJobs s).ks.jobs, running := (startJobs s).ks.running,
                          lastFailure := (startJobs s).ks.lastFailure },
        transit := { s.transit with results := (startJobs s).transit.results } } := by
  unfold startJobs
  split
  · exact startFrom_frame _ _
  · rfl

end Sys2Proof.Machine
end

