-- ==== Sys2Proof/Laws/Contexts.lean ====
section
/-! SUPPORT. What an event at a context record can do, and how its rises are handled: admissions, visits, re-evaluations and
results. -/

namespace Sys2Proof.Machine

/-! ## An event at one record -/

/-- `t` is what an event at context `c` has done to `s` before its rises: it reaches the record, but for its owed marks, and the
slots. -/
structure RecordEvent (c : CtxIx) (s t : State) : Prop where
  reaches : AtContext c s t
  owed : (t.ctx c).owed = (s.ctx c).owed

theorem RecordEvent.refl (c : CtxIx) (s : State) : RecordEvent c s s := ⟨.refl _ _, rfl⟩

theorem RecordEvent.trans {c : CtxIx} {a b d : State} (h : RecordEvent c a b) (k : RecordEvent c b d) : RecordEvent c a d :=
  ⟨h.reaches.trans k.reaches, k.owed.trans h.owed⟩

theorem RecordEvent.setCtx (c : CtxIx) (s : State) (r : Ctx) (h : r.owed = (s.ctx c).owed) : RecordEvent c s (s.setCtx c r) :=
  ⟨.setCtx _ _ _, by simpa using h⟩

theorem RecordEvent.slotRequest (c : CtxIx) (k : SlotIx) (g : Gen) (f : Slot → Slot) (s : State) :
    RecordEvent c s (slotRequest k c g f s) :=
  ⟨.slotRequest _ _ _ _ _, by simp [State.ctx]⟩

/-- The context records after an event at one of them. -/
theorem AtContext.ctxs {c : CtxIx} {s t : State} (h : AtContext c s t) : t.ctxs = put s.ctxs c (t.ctx c) := by
  apply Vector.ext
  intro i hi
  by_cases e : i = c.val
  · subst e; simp [put, State.ctx, look]
  · have k := h.other ⟨i, hi⟩ (fun x => e (by rw [← x]))
    simp only [State.ctx, look] at k
    simp only [put]
    rw [Vector.getElem_set_ne]
    · exact k
    · omega

/-- The rises of an event at one record are handled, whatever parts other than the Notice Unit, the context records and the
Return Merges the event changes beside it (R187, R190). -/
theorem RecordEvent.rises {c : CtxIx} {s u v : State} (h : RecordEvent c s u) (hm : v.merge = s.merge)
    (hk : v.ks.freeSlots = s.ks.freeSlots) (hn : v.notice = (reportRises c s u).notice)
    (hc : v.ctxs = (reportRises c s u).ctxs) :
    RisesHandled c (s.ctx c).flags (ownEffect c s (departNew s v)) (departNew s v) :=
  rises_ownEffect c (by rw [h.reaches.frame]) h.reaches.ctxs h.owed hm (by rw [hk, h.reaches.frame]) hn hc

/-- The same for a command answered in its event. -/
theorem RecordEvent.answered {x : CtxIx} {s u : State} (h : RecordEvent x s u) (c : Command) (st : Status) (body : Bytes) :
    RisesQueued x s (answer s c st body (reportRises x s u)) := by
  refine answer_risesQueued x c st body (u := u) (by rw [h.reaches.frame]) h.reaches.ctxs h.owed ?_ ?_ ?_ rfl rfl
  · rw [reportRises_eq]; show u.merge = _; rw [h.reaches.frame]
  · rw [reportRises_eq]; show u.agent.intake = _; rw [h.reaches.frame]
  · rw [reportRises_eq]; rfl

/-- An event that sets no flag has no rise. -/
theorem reportRises_none (c : CtxIx) {s u : State} (h : (u.ctx c).flags = (s.ctx c).flags) : reportRises c s u = u := by
  have e : enabledRises c (s.ctx c).flags u = [] := by
    refine List.filter_eq_nil_iff.2 fun f _ => ?_
    rw [h]; cases hasFlag (s.ctx c).flags f.bit <;> simp
  rw [reportRises_eq, e, takeRises_nil]

/-! ## The parts of the events -/

theorem Ctx.count_owed (r : Ctx) (n : CtxCounter) (k : Nat) : (r.count n k).owed = r.owed := by
  unfold Ctx.count; simp only; split <;> rfl

theorem crossedRecord_owed (r : Ctx) : (crossedRecord r).owed = r.owed := by
  unfold crossedRecord; simp only; repeat' split
  all_goals rfl

theorem switchCtx_event (c : CtxIx) (s : State) : RecordEvent c s (switchCtx c s) := by
  refine ⟨switchCtx_at c s, ?_⟩
  by_cases h : nextReady (s.ctx c) = true
  · obtain ⟨k, hk⟩ := (nextReady_iff _).1 h
    rw [switchCtx_ctx hk]; rfl
  · unfold switchCtx; split
    · next k hk => simp [nextReady, hk] at h
    · rfl

theorem hardEvent_event (c : CtxIx) (s : State) : RecordEvent c s (hardEvent c s) := by
  refine ⟨hardEvent_at c s, ?_⟩
  rcases hardEvent_ctx c s with ⟨k, _, h⟩ | ⟨_, h⟩ <;> rw [h] <;> rfl

theorem softCrossing_event (c : CtxIx) (s : State) : RecordEvent c s (softCrossing c s) := by
  refine ⟨softCrossing_at c s, ?_⟩
  rw [softCrossing_ctx]; split <;> exact crossedRecord_owed _

/-! ## Admissions (R54 to R59) -/

theorem admitUnder_event (k : SlotIx) (q : AdmissionReq) (s : State) : RecordEvent q.ctx s (admitUnder k q s) :=
  (RecordEvent.setCtx _ _ _ (by simp [admittedRecord, Ctx.count_owed])).trans (.slotRequest _ _ _ _ _)

theorem admitActive_event (q : AdmissionReq) (s : State) : RecordEvent q.ctx s (admitActive q s).1 := by
  have soft : ∀ pn s, RecordEvent q.ctx s (admissionSoft q.ctx pn s) := fun pn s => by
    unfold admissionSoft; simp only; split
    · exact softCrossing_event _ _
    · exact .refl _ _
  have hard : ∀ s, RecordEvent q.ctx s (admissionPnHard q.ctx s) := fun s => by
    unfold admissionPnHard; split
    · exact hardEvent_event _ _
    · exact .refl _ _
  unfold admitActive; simp only; split
  · exact ((admitUnder_event _ _ _).trans (soft _ _)).trans (hard _)
  · exact .setCtx _ _ _ (Ctx.count_owed _ _ _)

/-- The decision of an admission is an event at the context it names. -/
theorem decideAdmission_event (q : AdmissionReq) (s : State) : RecordEvent q.ctx s (decideAdmission q s).1 := by
  unfold decideAdmission; simp only
  repeat' split
  · exact .refl _ _
  · exact .setCtx _ _ _ (Ctx.count_owed _ _ _)
  · exact (hardEvent_event _ _).trans (admitActive_event q _)
  · exact admitActive_event q _

/-- A take reaches the lane's Trunk Receive and Cipher Lane and the messages in transit alone (R107). -/
theorem laneTake_frame (l : Lane) (s : State) :
    laneTake l s = { s with rx := (laneTake l s).rx, cipher := (laneTake l s).cipher, transit := (laneTake l s).transit } := by
  unfold laneTake; split
  · split
    · simp only; repeat' split
      all_goals rfl
    · rfl
  · rfl

/-- The answer reaches the Cipher Lanes, the messages in transit and, at a FLUSHED record, the slots (R109, R117). -/
theorem takeAnswer_frame (l : Lane) (q : AdmissionReq) (a : Admission) (s : State) :
    takeAnswer l q a s = { s with
      ks := { s.ks with slots := (takeAnswer l q a s).ks.slots }, cipher := (takeAnswer l q a s).cipher,
      transit := (takeAnswer l q a s).transit } := by
  unfold takeAnswer; split
  all_goals first
    | rfl
    | (simp only [discardProtect, countFlushDrop, reportFlushDrop, releaseInFlight, closeRequest]
       rw [slotRequest_frame]; rfl)

/-! ## Visits and re-evaluations (R60, R62) -/

/-- A visit's update and its two checks are an event at the context visited. -/
theorem visit_event (c : CtxIx) (inc : Nat) (s : State) :
    RecordEvent c s (ageHard c (ageSoft c (s.setCtx c (agedRecord (s.ctx c) inc)))) := by
  have aged : (agedRecord (s.ctx c) inc).owed = (s.ctx c).owed := by unfold agedRecord; simp only; split <;> rfl
  have soft : ∀ s, RecordEvent c s (ageSoft c s) := fun s => by
    unfold ageSoft; simp only; split
    · exact softCrossing_event _ _
    · exact .refl _ _
  have hard : ∀ s, RecordEvent c s (ageHard c s) := fun s => by
    unfold ageHard; simp only; split
    · exact hardEvent_event _ _
    · exact .refl _ _
  exact ((RecordEvent.setCtx _ _ _ aged).trans (soft _)).trans (hard _)

/-- A visit at a context is an event there, and its rises are reported. -/
theorem ageVisit_event (c : CtxIx) (inc : Nat) (s : State) :
    ∃ u, RecordEvent c s u ∧ ageVisit c inc s = reportRises c s u := by
  unfold ageVisit; split
  · exact ⟨_, visit_event c inc s, rfl⟩
  · exact ⟨s, .refl _ _, (reportRises_none c rfl).symm⟩

/-- The visit taken next is one of those sent. -/
theorem nextVisit_mem {s : State} {v : Option Nat × CtxIx × Nat} (h : nextVisit s = some v) : v ∈ visitsSent s := by
  unfold nextVisit at h
  split at h
  · cases h
  · rename_i e; cases h; rw [e]; exact List.mem_singleton_self _
  · rename_i e; rw [e]; exact List.mem_of_getElem? h

/-- Where any visit is sent, there is one to take next. -/
theorem nextVisit_exists {s : State} (h : visitsSent s ≠ []) : ∃ v, nextVisit s = some v := by
  unfold nextVisit
  split
  · contradiction
  · exact ⟨_, rfl⟩
  · rename_i v w vs _
    exact ⟨_, List.getElem?_eq_getElem (Nat.mod_lt _ (by omega) : Config.whichVisit s.draws % (vs.length + 2) < (v :: w :: vs).length)⟩

/-- Where a visit sent comes from: the RUNNING pass, or a place among those left. -/
theorem mem_visitsSent {s : State} {place : Option Nat} {c : CtxIx} {inc : Nat} :
    (place, c, inc) ∈ visitsSent s ↔
      (place = none ∧ ∃ p, s.age.pass = some p ∧ c = p.position ∧ inc = p.increment) ∨
        ∃ n, place = some n ∧ s.transit.visits[n]? = some (c, inc) := by
  rw [visitsSent, List.mem_append, List.mem_map, List.mem_map, or_comm]
  refine or_congr ⟨?_, ?_⟩ ⟨?_, ?_⟩
  · rintro ⟨v, hv, e⟩
    cases h : s.age.pass <;> simp only [sentVisit, h, Option.map, Option.toList, List.mem_cons, List.not_mem_nil, or_false] at hv
    subst hv; cases e; exact ⟨rfl, _, rfl, rfl, rfl⟩
  · rintro ⟨rfl, p, hp, rfl, rfl⟩
    exact ⟨(p.position, p.increment), by simp only [sentVisit, hp, Option.map, Option.toList, List.mem_singleton], rfl⟩
  · rintro ⟨⟨v, n⟩, hv, e⟩
    cases e; exact ⟨n, rfl, List.mem_zipIdx_iff_getElem?.mp hv⟩
  · rintro ⟨n, rfl, hn⟩
    exact ⟨((c, inc), n), List.mem_zipIdx_iff_getElem?.mpr hn, rfl⟩

/-- A visit reaches its context's record and slots, and beside it the pass or the place that it is taken from; its rises are
handled (R141, R146, R187). -/
theorem sweepVisit_taken {s : State} {place : Option Nat} {c : CtxIx} {inc : Nat} (h : nextVisit s = some (place, c, inc)) :
    Settled (closeVisit place (ageVisit c inc (drawn s))) (sweepVisit s) ∧
      RisesHandled c (s.ctx c).flags (ownEffect c s (sweepVisit s)) (sweepVisit s) := by
  have e : sweepVisit s = departNew s (closeVisit place (ageVisit c inc (drawn s))) := by simp only [sweepVisit, h]
  obtain ⟨u, hu, hv⟩ := ageVisit_event c inc (drawn s)
  rw [e]
  refine ⟨departNew_settled _ _, ?_⟩
  have f : ∀ x : State, (closeVisit place x).merge = x.merge ∧ (closeVisit place x).ks = x.ks ∧
      (closeVisit place x).notice = x.notice ∧ (closeVisit place x).ctxs = x.ctxs := fun x => by
    cases place <;> exact ⟨rfl, rfl, rfl, rfl⟩
  obtain ⟨hm, hk, hn, hc⟩ := f (ageVisit c inc (drawn s))
  have fr := hu.reaches.frame
  have q := reportRises_eq c (drawn s) u
  rw [hv] at hm hk hn hc ⊢
  refine rises_ownEffect c (u := u) (by rw [fr]; rfl) hu.reaches.ctxs hu.owed ?_ ?_ hn hc
  · rw [hm, q]; show u.merge = _; rw [fr]; rfl
  · rw [hk, q]; rfl

/-- A re-evaluation is an event at its context. -/
theorem reevaluate_event (c : CtxIx) (s : State) : RecordEvent c s (reevaluate c s) := by
  have hard : ∀ s, RecordEvent c s (reevaluateHard c s) := fun s => by
    unfold reevaluateHard; split
    · exact hardEvent_event _ _
    · exact .refl _ _
  unfold reevaluate; simp only; repeat' split
  · exact softCrossing_event _ _
  · exact (softCrossing_event _ _).trans (hard _)
  · exact hard _

end Sys2Proof.Machine
end

