-- ==== Sys2Proof/WellFormed.lean ====
section
/-! DEFINITION. Which commands are well formed.

Lanes, contexts, slots and generations are bounded by their types. What remains is a check on a received frame: a
reception that ended with a good FCS holds the four octets of that FCS (00_scope, "FCS"). -/

namespace Sys2Proof

/-- A frame received with a good FCS has at least the FCS's four octets. -/
def RxFrame.wellFormed (rx : RxFrame) : Bool :=
  match rx.ending with
  | .good => decide (4 ≤ rx.octets.length)
  | .badFcs => decide (4 ≤ rx.octets.length)
  | .badEnd => true

/-- The operands of a command are such as the ports can produce. -/
def Instr.wellFormed : Instr → Bool
  | .trunkFrameTaken _ rx => rx.wellFormed
  | .campusFrameReceived _ rx => rx.wellFormed
  | _ => true

end Sys2Proof
end

