-- ==== Sys2Proof/Tests/Slice0.lean ====
section
/-! SUPPORT. Tests of the model. Each `test_` theorem takes its expected result from the spec, by a worked example or by the
rule its comment names. Each `witness_` theorem shows a concrete state and operands that meet all the hypotheses of the
obligation it is named after, a clause each where the obligation has several. -/

namespace Sys2Proof.Tests

open Sys2Proof Sys2Proof.Machine

/-! ## Small states -/

/-- A frame of `n` octets without FCS, untagged, with an EtherType. -/
def plain (dest type n : Nat) : Bytes := octetsOf 6 dest ++ octetsOf 6 7 ++ octetsOf 2 type ++ zeros (n - 14)

/-- A frame of `n` octets without FCS, with a tag control field and an own EtherType. -/
def tagged (dest tci type n : Nat) : Bytes :=
  octetsOf 6 dest ++ octetsOf 6 7 ++ octetsOf 2 0x8100 ++ octetsOf 2 tci ++ octetsOf 2 type ++ zeros (n - 18)

/-- A reception: the frame, an FCS, and how it ended. -/
def rxOk (f : Bytes) : RxFrame := ⟨f ++ zeros 4, .good⟩

/-- A control frame to the reset device address with a code, request tag 77 and a body, with an all-zero integrity tag. -/
def ctl (code : Nat) (body : Bytes) : Bytes :=
  padFrame (octetsOf 6 0x0A0000000001 ++ octetsOf 6 0x020000000099 ++ octetsOf 2 0x9D4F ++
    controlHeader code false 0 77 body.length ++ body ++ zeros 16)

/-- The reset state with the trunk and campus links of lane 0 UP. -/
def up : State :=
  (State.reset.setMerge 0 { ReturnMerge.reset with linkUp := true }).setCampus 0 { CampusQueue.reset with linkUp := true }

/-- A command of lane 0 that has begun. -/
def cmd (code : Nat) (body : Bytes) : Command := ⟨0, ctl code body, 1, .begun none⟩

/-- A state in which a command of lane 0 is in progress at a stage. -/
def at_ (c : Command) (s : State) : State :=
  (s.setAgent { s.agent with progress := some c, serial := 1 }).setMerge 0 { s.mergeOf 0 with reserved := true }

/-- A state in which the command of a code and body waits to be taken. -/
def busy (code : Nat) (body : Bytes) (s : State) : State := at_ (cmd code body) s

/-- The state after a command. -/
def run (i : Instr) (s : State) : State :=
  match exec i s with
  | .next t => t
  | .fault _ => s
  | .refused _ => s

/-- The response in transmission on lane 0: its status octet and its body. -/
def answerOf (s : State) : Option (Nat × Bytes) :=
  match (s.mergeOf 0).sending with
  | some (.control f) => some (field f.octets 17 1, slice f.octets 22 (field f.octets 20 2))
  | _ => none

/-- The octets of a list of numbers. -/
def bytes (l : List Nat) : Bytes := l.map (BitVec.ofNat 8)

theorem zeros_length (n : Nat) : (zeros n).length = n := List.length_replicate
theorem octetCount_zeros (n : Nat) : octetCount [zeros n] = n := by
  show (zeros n).length + 0 = n
  rw [zeros_length]; rfl

/-! ## Well-formedness -/

theorem test_wf_good_without_fcs_refused : (Instr.trunkFrameTaken 0 ⟨zeros 3, .good⟩).wellFormed = false := by decide
theorem test_wf_badFcs_without_fcs_refused : (Instr.trunkFrameTaken 0 ⟨zeros 3, .badFcs⟩).wellFormed = false := by decide
theorem test_wf_campus_without_fcs_refused : (Instr.campusFrameReceived 2 ⟨[], .good⟩).wellFormed = false := by decide
theorem test_wf_fcs_alone_accepted : (Instr.trunkFrameTaken 0 ⟨zeros 4, .good⟩).wellFormed = true := by decide
theorem test_wf_cut_reception_accepted : (Instr.campusFrameReceived 0 ⟨[], .badEnd⟩).wellFormed = true := by decide

/-- The table gives its rows no bits, so no word spells a command. -/
theorem test_decode_none : decodeTableWord 16 0x0001 = none := rfl

/-- R166: IDENTIFY is answered OK with the 16 octets of R196. -/
theorem test_identify : answerOf (run .identify (busy 1 [] up)) =
    some (0, bytes [0x41, 0x20, 1, 4, 4, 0, 9, 0, 2, 0, 4, 0, 0, 0, 0]) := by decide +kernel

/-! ## Cryptography, from published vectors -/

/-- FIPS 197, example C.3. -/
theorem test_aes256 : numOf (aesEncrypt 0x000102030405060708090a0b0c0d0e0f101112131415161718191a1b1c1d1e1f#256
    (octetsOf 16 0x00112233445566778899aabbccddeeff)) = 0x8ea2b7ca516745bfeafc49904b496089 := by decide +kernel

/-- SP 800-38B, AES-256, the empty message. -/
theorem test_cmac : numOf (cmac 0x603deb1015ca71be2b73aef0857d77811f352c073b6108d72d9810a30914dff4#256 []) =
    0x028962f61b7bf89efc6b551f4667d983 := by decide +kernel

/-- The GCM specification's test case 14. -/
theorem test_gcm : (let r := gcmEncrypt 0#256 (zeros 12) [] (zeros 16); (numOf r.1, numOf r.2)) =
    (0xcea7403d4d606b6e074ec5d3baf39d18, 0xd0d1c8a799996bf0265b98b5d48ab919) := by decide +kernel

/-- FIPS 197, example C.3, the inverse cipher, which the key unwrap of R78 uses. -/
theorem test_aes256_inverse : numOf (aesDecrypt 0x000102030405060708090a0b0c0d0e0f101112131415161718191a1b1c1d1e1f#256
    (octetsOf 16 0x8ea2b7ca516745bfeafc49904b496089)) = 0x00112233445566778899aabbccddeeff := by decide +kernel

/-! ## The step, reset and invariants -/

theorem witness_StepTakesTheFrontCommand :
    ({ up with pending := [.identify, .noticeDeparture] } : State).pending = .identify :: [.noticeDeparture] := rfl

theorem test_step_runs_front : (step { busy 1 [] up with pending := [.identify, .passStart] }) =
    .next (run .identify { busy 1 [] up with pending := [.passStart] }) := rfl

theorem test_step_idles : step up = .next up := rfl

theorem reset_ctx (c : CtxIx) : State.reset.ctx c = Ctx.reset := by simp [State.reset, State.ctx]
theorem reset_slot (k : SlotIx) : State.reset.slot k = Slot.reset := by simp [State.reset, State.slot, KeyStore.reset]
theorem reset_entry (e : SelIx) : State.reset.entry e = SelEntry.reset := by
  simp [State.reset, State.entry, Selector.reset]
theorem zero_bounded (n : Nat) : (CounterSet.zero n).bounded := fun i => by simp [CounterSet.zero]

/-- An idle step from reset, at the least values of every range. -/
theorem witness_CountersStayBounded : CountersBounded State.reset ∧ step State.reset = .next State.reset :=
  ⟨{ rx := fun l => by simp [State.reset, State.rxOf, TrunkRx.reset, zero_bounded],
     hits := fun e => by rw [reset_entry]; exact zero_bounded 1,
     ctx := fun c => by rw [reset_ctx]; exact zero_bounded 6,
     blocks := fun c => by rw [reset_ctx]; decide,
     age := fun c => by rw [reset_ctx]; decide,
     jobs := by decide,
     flush := fun l => by simp [State.reset, State.cipherOf, CipherLane.reset, zero_bounded],
     campus := fun l => by simp [State.reset, State.campusOf, CampusQueue.reset, zero_bounded],
     lost := by decide,
     agent := zero_bounded 7,
     merge := fun l => by simp [State.reset, State.mergeOf, ReturnMerge.reset, zero_bounded] }, rfl⟩

theorem witness_CapacitiesHold : WithinCapacity State.reset ∧ step State.reset = .next State.reset :=
  ⟨{ rxBuffer := by decide, records := by decide, campus := by decide, relay := by decide, control := by decide,
     reserved := fun l => by simp [State.reset, State.mergeOf, ReturnMerge.reset, Agent.reset],
     intake := by decide, jobs := by decide, notices := by decide, owed := by decide }, rfl⟩

theorem witness_SlotsStaySound : SlotsSound State.reset ∧ step State.reset = .next State.reset :=
  ⟨{ clean := fun k => by rw [reset_slot]; exact ⟨fun _ => ⟨rfl, rfl, rfl, rfl⟩, fun _ => rfl⟩,
     count := by decide +kernel }, rfl⟩

theorem witness_ContextsStaySound : (∀ c, CtxSound (State.reset.ctx c)) ∧ step State.reset = .next State.reset :=
  ⟨fun c => by rw [reset_ctx]; constructor <;> first | decide | (constructor <;> decide), rfl⟩

theorem witness_OwedMarksStayWaiting : OwedMarksWait State.reset ∧ step State.reset = .next State.reset :=
  ⟨{ bound := by decide, device := by decide, context := fun c h => by rw [reset_ctx] at h; exact absurd rfl h,
     restart := fun cmd step free h => by cases h }, rfl⟩

theorem witness_EveryCommandReachesOnlyItsParts :
    exec .identify (busy 1 [] up) = .next (run .identify (busy 1 [] up)) ∧ Part.selector ∉ reach .identify (busy 1 [] up) :=
  ⟨rfl, by decide⟩

/-! ## Contexts and slots for tests -/

/-- An ACTIVE context with current slot 133 on generation 41. -/
def act : Ctx := { Ctx.reset with state := .active, generation := 41#16, current := some 133, nextPn := 1 }

/-- A state with the record of context 7, whose current slot 133 is CURRENT with a number of frames in flight and whose next
slot 134 is READY. -/
def with7 (r : Ctx) (inFlight : Nat) (s : State) : State :=
  ((s.setCtx 7 r).setSlot 133 ⟨.current, some (7, 41#16), 0x11223344#32, 0, inFlight, 0#256⟩).setSlot 134
    ⟨.ready, some (7, 41#16), 0#32, 0, 0, 0#256⟩

/-- The frame of case 1 of 3.9: L = 1,514, tagged with VLAN 210 and priority 5. -/
def case1 : Bytes := tagged 0x021000000005 (5 * 8192 + 210) 0x0800 1514

/-- Lane 0 holds a RESERVED record of context 7 for the frame of case 1, and its request is outstanding. -/
def asking (limit : Nat) (s : State) : State :=
  s.setCipher 0 { CipherLane.reset with recs := [.reserved case1 0 7], request := some ⟨7, 1514, true, 210#12, 0, limit⟩ }

/-- The options of case 1: CLEAR_TAG and ORIGIN_LABEL. -/
def case1Options : CtxOptions := ⟨true, true, false⟩

/-- Context 7 of case 4 of 3.9: condition code 1, block soft 10 units, block hard 11 units. -/
def case4 (pn blocks : Nat) : Ctx :=
  { act with options := case1Options, condition := 1, thresholds := ⟨4294967295, 10, 11, 65535, 65535⟩, nextPn := pn,
             blocks := blocks }

/-! ## Generation and packet numbers -/

theorem witness_GenerationChangesAtFourEvents :
    exec .contextZeroize (up.setCtx 7 act) = .next (run .contextZeroize (up.setCtx 7 act)) ∧
      ((run .contextZeroize (up.setCtx 7 act)).ctx 7).generation = 42#16 ∧ ((up.setCtx 7 act).ctx 7).generation = 41#16 :=
  ⟨rfl, by decide +kernel, by decide +kernel⟩

theorem witness_NextPnRisesWithinATenure :
    let s := asking 9600 (with7 (case4 5 0) 0 up)
    exec (.admissionRequest 0) s = .next (run (.admissionRequest 0) s) ∧ (s.ctx 7).state = .active ∧
      ((run (.admissionRequest 0) s).ctx 7).state = .active ∧
      ((run (.admissionRequest 0) s).ctx 7).current = (s.ctx 7).current ∧
      (s.ctx 7).next.map Prod.fst ≠ (s.ctx 7).current :=
  ⟨rfl, by decide +kernel, by decide +kernel, by decide +kernel, by decide +kernel⟩

/-! ## Device reset and zeroize -/

/-- R84, R85: a reset with ZEROIZE_N asserted at its end, MKONCE high and PROVLANE 2. -/
theorem test_reset : let t := run (.deviceReset 2 true true) (busy 1 [] up)
    (t.ks.zeroizeHeld, t.notice.flags, t.provLane, t.mkOnce, t.agent.progress, (t.mergeOf 0).linkUp) =
      (true, 1#6, 2, true, none, false) := by decide +kernel

/-- R83: a zeroize reaches a slot and keeps its owner; the flags are POOL_LOW and ZEROIZED. -/
theorem test_zeroize : let t := run .keyStoreZeroize (with7 act 3 up)
    (t.slot 133, t.notice.flags, t.ks.freeSlots, t.ks.zeroizeHeld) =
      (⟨.scrubbing, some (7, 41#16), 0#32, 0, 0, 0#256⟩, 9#6, 0, true) := by decide +kernel

/-- The premise of the clause about an agent without a restart. -/
theorem witness_ZeroizeDestroysEveryKey : ∀ c step free, up.agent.progress = some c → c.stage ≠ Stage.restart step free :=
  fun _ _ _ h => by cases h

/-- R23, R42, R105: a zeroize at the Context Table that comes before the Key Store's releases the slots: CURRENT with and without
a frame in flight, and READY. -/
theorem test_contextZeroize :
    (let t := run .contextZeroize (with7 { act with next := some (134, .ready) } 2 up)
     ((t.ctx 7).state, (t.ctx 7).current, (t.slot 133).state, (t.slot 133).inFlight, (t.slot 134).state) =
       (.undefined, none, .draining, 2, .scrubbing)) ∧
      ((run .contextZeroize (with7 act 0 up)).slot 133).state = .scrubbing ∧
      ((run .contextZeroize (with7 act 0 up)).slot 134).state = .ready := by decide +kernel

/-- A command that waits for its job. -/
def waiting : State := at_ { cmd 0x40 [] with stage := .waitJob } up

/-- R159: the agent abandons the command that waits. -/
theorem test_agentZeroize : ((run .agentZeroize waiting).agent.progress, ((run .agentZeroize waiting).mergeOf 0).reserved) =
    (none, false) := by decide +kernel

/-- A report that the job of command 1 was discarded. -/
def jobGone (s : State) : State := s.setTransit { s.transit with discardReports := [1] }

theorem test_jobDiscardReport : let t := run (.jobDiscardReport 0) (jobGone waiting)
    (t.agent.progress, t.transit.discardReports) = (none, []) := by decide +kernel

theorem witness_ZeroizeReachesTheOtherBlocks :
    (let s := with7 { act with next := some (134, .ready) } 0 up
     (s.slot 133).owner = some (7, 41#16) ∧ (s.ctx 7).generation = 41#16 ∧ (s.ctx 7).current = some 133 ∧
       (s.slot 133).state = .current ∧ (s.ctx 7).next.map Prod.fst = some 134 ∧ (s.slot 134).state = .ready ∧
       (s.slot 134).owner = some (7, 41#16) ∧ (up.slot 0).owner = none ∧ (up.ctx 7).current ≠ some 133) ∧
    (up.ctx 0).state = .undefined ∧ ((with7 act 0 up).ctx 7).state ≠ .undefined ∧
      up.age.pass = none ∧ (up.setAge { up.age with pass := some ⟨1, 0, 9, 3⟩ }).age.pass = some ⟨1, 0, 9, 3⟩ ∧
      (jobGone waiting).transit.discardReports[0]? = some 1 ∧
      (∃ c, (jobGone waiting).agent.progress = some c ∧ c.serial = 1 ∧ c.stage = .waitJob) ∧
      (jobGone waiting).agent.intake = [] ∧ waitingCommand 1 (jobGone (busy 0x40 [] up)) = none :=
  ⟨by decide +kernel, by decide +kernel, by decide +kernel, rfl, rfl, rfl, ⟨_, rfl, rfl, rfl⟩, rfl, by decide +kernel⟩

/-- R146, R84: the Age Timer gives up its pass and its owed ticks, but not the visit sent, and the release ends the hold. -/
theorem test_ageTimerZeroize : let t := run .ageTimerZeroize (up.setAge { up.age with owed := 15, pass := some ⟨1, 0, 9, 3⟩ })
    (t.age.owed, t.age.pass, t.age.enable, t.transit.visits) = (0, none, true, [(3, 1)]) := by decide +kernel

theorem test_zeroizeRelease : (run .zeroizeRelease (up.setKs { up.ks with zeroizeHeld := true })).ks.zeroizeHeld = false := rfl

/-! ## Trunk Receive -/

theorem test_short_frame : look ((run (.trunkFrameTaken 0 ⟨zeros 63, .good⟩) up).rxOf 0).counters.vals 4 = 1 := by
  decide +kernel

theorem test_data_frame : let t := run (.trunkFrameTaken 0 (rxOk (plain 5 0x0800 60))) up
    ((t.rxOf 0).buffer.map List.length, (t.rxOf 0).counters.vals.toList.take 2) = ([60], [1, 60]) := by decide +kernel

/-- Boundary values of R1 and R4: 63, 64, 9,216 and 9,217 octets; a buffer that a 60-byte frame fills exactly, and one a byte
fuller. -/
theorem witness_DataFrameReception :
    ((zeros 63).length < 64 ∧ 9216 < (zeros 9217).length) ∧
      (64 ≤ (rxOk (plain 5 0x0800 60)).octets.length ∧ (rxOk (zeros 9212)).octets.length = 9216) ∧
      (⟨zeros 64, .badFcs⟩ : RxFrame).ending ≠ .good ∧
      ¬(destOf (plain 5 0x0800 60) = up.agent.address ∧ (etherTypeOf (plain 5 0x0800 60)).toNat = 0x9D4F) ∧
      octetCount [zeros 262084] + (zeros 60).length ≤ 262144 ∧ 262144 < octetCount [zeros 262085] + (zeros 60).length :=
  ⟨by rw [zeros_length, zeros_length]; decide, ⟨by decide, by rw [rxOk, List.length_append, zeros_length, zeros_length]⟩,
    by decide, by decide +kernel, by simp [octetCount_zeros, zeros_length],
    by simp [octetCount_zeros, zeros_length]⟩

/-- An intake of eight frames. -/
def fullIntake (s : State) : State := s.setAgent { s.agent with intake := List.replicate 8 ⟨0, ctl 1 [], false⟩ }

/-- R149, R150, R152: the form, the lane and the room of intake, in the provisioning state. -/
theorem test_control_frame :
    (run (.trunkFrameTaken 0 (rxOk (ctl 1 []))) (busy 1 [] up)).agent.intake.length = 1 ∧
      look (run (.trunkFrameTaken 1 (rxOk (ctl 1 []))) (busy 1 [] up)).agent.counters.vals 2 = 1 ∧
      look (run (.trunkFrameTaken 0 (rxOk (plain 0x0A0000000001 0x9D4F 60))) (busy 1 [] up)).agent.counters.vals 1 = 1 ∧
      (run (.trunkFrameTaken 0 (rxOk (ctl 1 []))) (fullIntake (busy 1 [] up))).notice.flags = 2#6 := by
  decide +kernel

/-- The control output queue of lane 0 with 16 frames. -/
def noRoom : State := up.setMerge 0 { up.mergeOf 0 with control := List.replicate 16 ⟨[], false⟩ }

/-- R152, R153: an IDLE agent with an empty intake takes the frame and begins it in the same event; without room for its
response the frame stays in intake. -/
theorem test_control_frame_begins :
    (let t := run (.trunkFrameTaken 0 (rxOk (ctl 1 []))) up
     (t.agent.intake, t.agent.progress.map (fun c => (ctlCode c.frame, c.stage)), (t.mergeOf 0).reserved,
       look t.agent.counters.vals 0)) = ([], some (1, .begun none), true, 1) ∧
      (let t := run (.trunkFrameTaken 0 (rxOk (ctl 1 []))) noRoom
       (t.agent.intake, t.agent.progress, look t.agent.counters.vals 0)) = ([⟨0, ctl 1 [], false⟩], none, 1) := by
  decide +kernel

/-- The state BUSY and provisioned with a key. -/
def provisioned (s : State) : State := s.setKs { s.ks with mgmtKey := some 0#256 }

/-- A control frame under the all-zero key: its integrity tag is the CMAC of its header and body. -/
def signed : Bytes :=
  let f := ctl 1 []
  f.take 22 ++ cmac 0#256 (ctlCovered f) ++ f.drop 38

theorem witness_ControlFrameIntake :
    (64 ≤ (rxOk (ctl 1 [])).octets.length ∧ (rxOk (ctl 1 [])).octets.length ≤ 9216 ∧ (rxOk (ctl 1 [])).ending = .good) ∧
      (destOf (ctl 1 []) = up.agent.address ∧ (etherTypeOf (ctl 1 [])).toNat = 0x9D4F) ∧
      ((busy 1 [] up).agent.progress.isSome = true ∧
        (let b := noRoom.setAgent { up.agent with intake := [⟨0, ctl 1 [], false⟩] }
         b.agent.progress = none ∧ b.agent.intake = ⟨0, ctl 1 [], false⟩ :: [] ∧ b.ks.mgmtKey = none ∧
           16 ≤ placesUsed (b.mergeOf 0))) ∧
      (up.agent.progress = none ∧ up.agent.intake = [] ∧ placesUsed (up.mergeOf 0) < 16 ∧ ctlCode (ctl 1 []) = 0x01 ∧
        ctlBodyLen (ctl 1 []) = 0 ∧ noRoom.agent.intake = [] ∧ 16 ≤ placesUsed (noRoom.mergeOf 0)) ∧
      (ctlFormOk (plain 0x0A0000000001 0x9D4F 60) = false ∧ ctlFormOk (ctl 1 []) = true ∧ up.ks.mgmtKey = none ∧
        (1 : Lane) ≠ up.provLane ∧ (0 : Lane) = up.provLane) ∧
      cmac 0#256 (ctlCovered (ctl 1 [])) ≠ ctlIntegrity (ctl 1 []) ∧
      (ctlFormOk signed = true ∧ cmac 0#256 (ctlCovered signed) = ctlIntegrity signed ∧
        (provisioned up).ks.mgmtKey = some 0#256) ∧
      (busy 1 [] up).agent.intake.length < 8 ∧ 8 ≤ (fullIntake (busy 1 [] up)).agent.intake.length :=
  ⟨by decide +kernel, by decide +kernel, by decide +kernel, by decide +kernel, by decide +kernel, by decide +kernel,
    by decide +kernel, by decide, by decide⟩

/-! ## The Selector: the worked example of 1.5 -/

/-- The list of 1.5, with the default PASS class 0. -/
def list15 : State :=
  let e : SelEntry := { SelEntry.reset with valid := true }
  ((((up.setEntry 0 { e with lanes := 3#4, tagMatch := .vlan 210#12, action := .protect 7 }).setEntry 1
    { e with typeMatch := true, etherType := 0x0806#16, action := .pass 3 }).setEntry 2
    { e with lanes := 4#4, priority := some 6#3, address := 0x01005E000000#48, prefixLen := 25 }).setEntry 4
    { e with tagMatch := .untagged, address := 0x021000000000#48, prefixLen := 24, typeMatch := true,
             etherType := 0x0800#16, action := .protect 12 }).setSelector
    { (((((up.setEntry 0 { e with lanes := 3#4, tagMatch := .vlan 210#12, action := .protect 7 }).setEntry 1
      { e with typeMatch := true, etherType := 0x0806#16, action := .pass 3 }).setEntry 2
      { e with lanes := 4#4, priority := some 6#3, address := 0x01005E000000#48, prefixLen := 25 }).setEntry 4
      { e with tagMatch := .untagged, address := 0x021000000000#48, prefixLen := 24, typeMatch := true,
               etherType := 0x0800#16, action := .protect 12 })).selector with default := .pass 0 }

/-- The matching entries of frames 1 to 6 of 1.5. -/
theorem test_list15 :
    [matchingEntry 0 (tagged 0x021000000005 (5 * 8192 + 210) 0x0800 60) list15,
      matchingEntry 1 (tagged 0xFFFFFFFFFFFF 210 0x0806 60) list15, matchingEntry 2 (tagged 0xFFFFFFFFFFFF 210 0x0806 60) list15,
      matchingEntry 2 (tagged 0x01005E7F0001 (6 * 8192 + 30) 0x0800 60) list15,
      matchingEntry 3 (plain 0x021000ABCDEF 0x0800 60) list15, matchingEntry 3 (plain 0x021001000001 0x0800 60) list15] =
    [some 0, some 0, some 1, some 2, some 4, none] := by decide +kernel

/-- A state whose lane holds one frame at the head of its buffer. -/
def head (l : Lane) (f : Bytes) (s : State) : State := s.setRx l { TrunkRx.reset with buffer := [f] }

/-- Frame 4 of 1.5 is dropped and counted; frame 6 passes by default. -/
theorem test_lookup :
    look ((run (.selectorLookup 2) (head 2 (tagged 0x01005E7F0001 (6 * 8192 + 30) 0x0800 60) list15)).rxOf 2).counters.vals 6 = 1 ∧
      ((run (.selectorLookup 3) (head 3 (plain 0x021001000001 0x0800 60) list15)).cipherOf 3).recs =
        [.pass (plain 0x021001000001 0x0800 60) 0] := by decide +kernel

theorem witness_FirstMatchingEntryDecides :
    let f := tagged 0xFFFFFFFFFFFF 210 0x0806 60
    let s := head 2 f list15
    (s.rxOf 2).headAction = none ∧ (s.rxOf 2).buffer = f :: [] ∧ entryMatches (s.entry 1) 2 f = true ∧
      ∀ j : SelIx, j.val < (1 : SelIx).val → entryMatches (s.entry j) 2 f = false :=
  ⟨rfl, rfl, by decide +kernel, fun j h => by
    have : j = 0 := by apply Fin.ext; have : (1 : SelIx).val = 1 := rfl; omega
    subst this; decide +kernel⟩

/-- Both actions at the ends of the class range, and a lookup without a match; lane 1 has 32 records, and lane 0 has none. -/
theorem witness_DefaultActionIsReplacedAndUsed :
    begunCommand 0x23 (busy 0x23 [0#8, 0#8] up) = some (cmd 0x23 [0#8, 0#8]) ∧
      (field (cmdBody (cmd 0x23 [0#8, 0#8])) 0 1 = 0 ∧ field (cmdBody (cmd 0x23 [0#8, 0#8])) 1 1 = 0) ∧
      begunCommand 0x23 (busy 0x23 [1#8, 3#8] up) = some (cmd 0x23 [1#8, 3#8]) ∧
      (field (cmdBody (cmd 0x23 [1#8, 3#8])) 0 1 = 1 ∧ field (cmdBody (cmd 0x23 [1#8, 3#8])) 1 1 = (3 : Cls).val) ∧
      (((head 0 (plain 5 0x0800 60) up).rxOf 0).headAction = none ∧
        ((head 0 (plain 5 0x0800 60) up).rxOf 0).buffer = plain 5 0x0800 60 :: []) ∧
      (∀ j, entryMatches ((head 0 (plain 5 0x0800 60) up).entry j) 0 (plain 5 0x0800 60) = false) ∧
      32 ≤ (List.replicate 32 (Rec.pass [] 0)).length ∧ (up.cipherOf 0).request = none ∧
      (plain 5 0x0800 60).length + 4 ≤ (up.campusOf 0).frameLimit ∧
      (1518 < (zeros 1515).length + 4 ∧ 1 < field [2#8, 0#8] 0 1 ∧ field [0#8, 1#8] 0 1 = 0 ∧ field [0#8, 1#8] 1 1 ≠ 0 ∧
        field [1#8, 4#8] 0 1 = 1 ∧ 3 < field [1#8, 4#8] 1 1) :=
  ⟨by decide +kernel, by decide +kernel, by decide +kernel, by decide +kernel, ⟨rfl, rfl⟩, fun j => by
    have : (head 0 (plain 5 0x0800 60) up).entry j = SelEntry.reset := reset_entry j
    rw [this]; rfl, by decide, rfl, by decide +kernel, by rw [zeros_length]; decide⟩

theorem test_defaultActionSet : let t := run .defaultActionSet (busy 0x23 [1#8, 3#8] up)
    (t.selector.default, answerOf t) = (.pass 3, some (0, [1#8, 3#8])) := by decide +kernel

theorem test_laneFrameTake : let s := (head 0 case1 up).setRx 0 { TrunkRx.reset with buffer := [case1], headAction := some (.protect 7 0) }
    ((run (.laneFrameTake 0) s).cipherOf 0).request = some ⟨7, 1514, true, 210#12, 0, 9600⟩ := by decide +kernel

/-- Both actions, and a frame that meets the limit and one a byte longer. -/
theorem witness_LaneTakesTheHeadFrame :
    let s := up.setRx 0 { TrunkRx.reset with buffer := [case1], headAction := some (.pass 1 none) }
    let p := up.setRx 0 { TrunkRx.reset with buffer := [case1], headAction := some (.protect 7 0) }
    ((s.rxOf 0).buffer = case1 :: [] ∧ (s.cipherOf 0).recs.length < 32 ∧ (s.cipherOf 0).request = none) ∧
      (s.rxOf 0).headAction = some (.pass 1 none) ∧ (p.rxOf 0).headAction = some (.protect 7 0) ∧
      case1.length + 4 ≤ 1518 ∧ 1518 < (zeros 1515).length + 4 :=
  ⟨by decide +kernel, rfl, rfl, by decide +kernel, by rw [zeros_length]; decide⟩

/-- A message of each kind in transit. -/
def messages (s : State) : State :=
  s.setTransit { s.transit with
    laneReports := [(0, .noContext), (1, .passOversize)], flushReports := [⟨7, 41#16, false⟩, ⟨7, 40#16, false⟩],
    queueReports := [(7, 41#16), (7, 40#16)] }

/-- `s` with the master enable and every device enable set, and `n` records in the Notice Queue. -/
def noticing (n : Nat) (s : State) : State :=
  s.setNotice { s.notice with
    master := true, enables := 63#6,
    queue := List.replicate n ⟨.context 9 .keyWanted, 1#16, .direct, .active, 0#2, 5, 6, 7, 2304⟩ }

/-- Reports of context 7, whose enables are given, with `n` records in the Notice Queue. -/
def rising (enables : BitVec 8) (n : Nat) : State := noticing n (messages (up.setCtx 7 { act with enables := enables }))

/-- Reports applied and not; QUEUE_DROP enabled with a Notice Queue that is empty, holds 63 records and is full, without its
enable, without the master enable, and set already. -/
theorem witness_DropReportsAreCounted :
    let s := messages (up.setCtx 7 act)
    s.transit.laneReports[0]? = some (0, .noContext) ∧ s.transit.laneReports[1]? = some (1, .passOversize) ∧
      s.transit.flushReports[0]? = some ⟨7, 41#16, false⟩ ∧ s.transit.flushReports[1]? = some ⟨7, 40#16, false⟩ ∧
      s.transit.queueReports[0]? = some (7, 41#16) ∧ s.transit.queueReports[1]? = some (7, 40#16) ∧
      ((s.ctx 7).generation = 41#16 ∧ (s.ctx 7).generation ≠ 40#16) ∧
      (((rising 2#8 0).ctx 7).generation = 41#16 ∧
        look ((rising 2#8 0).ctx 7).counters.vals CtxCounter.queueDrops.ix < counterMax ∧
        (rising 2#8 0).notice.master = true ∧ hasFlag ((rising 2#8 0).ctx 7).enables CtxFlag.queueDrop.bit = true ∧
        hasFlag ((rising 2#8 0).ctx 7).flags CtxFlag.queueDrop.bit = false) ∧
      ((rising 2#8 0).notice.queue = [] ∧ (rising 2#8 63).notice.queue ≠ [] ∧ (rising 2#8 63).notice.queue.length < 64 ∧
        64 ≤ (rising 2#8 64).notice.queue.length) ∧
      (hasFlag ((rising 253#8 0).ctx 7).enables CtxFlag.queueDrop.bit = false ∧ s.notice.master = false ∧
        hasFlag 2#8 CtxFlag.queueDrop.bit = true) :=
  ⟨rfl, rfl, rfl, rfl, rfl, rfl, by decide +kernel, by decide +kernel, by decide +kernel, by decide +kernel⟩

/-- R187, R188: the rise of QUEUE_DROP gives a DIRECT record, its owed mark where 64 records wait, and nothing without its
enable. -/
theorem test_rises :
    (run (.queueDropReport 0) (rising 2#8 0)).notice.queue =
        [⟨.context 7 .queueDrop, 41#16, .direct, .active, 0#2, 1, 0, 0, 2304⟩] ∧
      (let t := run (.queueDropReport 0) (rising 2#8 64)
       (t.notice.queue.length, (t.ctx 7).owed)) = (64, 2#8) ∧
      (let t := run (.queueDropReport 0) (rising 253#8 64)
       (t.notice.queue.length, (t.ctx 7).owed, (t.ctx 7).flags)) = (64, 0#8, 2#8) := by decide +kernel

/-- R186 to R188: the rise of a device flag gives a record of the device, and its owed mark where 64 records wait. -/
theorem test_device_rise :
    (raiseDevice .relayDrop (noticing 0 up)).notice.queue = [⟨.device .relayDrop, 0#16, .direct, .undefined, 0#2, 0, 0, 0, 2304⟩] ∧
      (let t := raiseDevice .relayDrop (noticing 64 up)
       (t.notice.queue.length, t.notice.owed, t.notice.flags)) = (64, 4#6, 4#6) := by decide +kernel

/-- R7, R33: each report, applied and not. -/
theorem test_reports :
    let s := messages (up.setCtx 7 act)
    look ((run (.laneDropReport 0) s).rxOf 0).counters.vals 10 = 1 ∧
      look ((run (.flushDropReport 0) s).ctx 7).counters.vals 5 = 1 ∧ look ((run (.flushDropReport 1) s).ctx 7).counters.vals 5 = 0 ∧
      look ((run (.queueDropReport 0) s).ctx 7).counters.vals 4 = 1 ∧ ((run (.queueDropReport 0) s).ctx 7).flags = 2#8 := by
  decide +kernel

/-! ## Admission: the worked cases of 3.9 -/

/-- Cases 1 to 3: B and L_out. -/
theorem test_frame_arithmetic :
    (blockCharge 1514 4 8, outLen 1514 8, blockCharge 60 0 0, outLen 60 0, blockCharge 9212 0 8, outLen 9212 8,
      blockCharge 9212 4 8) = (97, 1550, 5, 88, 577, 9248, 578) := by decide

/-- Case 1: against a campus frame limit of 1,518 the frame is oversize, takes no PN and raises OVERSIZE. -/
theorem test_oversize : let t := run (.admissionRequest 0) (asking 1518 (with7 (case4 5 0) 0 up))
    ((t.ctx 7).nextPn, (t.ctx 7).flags, look (t.ctx 7).counters.vals 3, (t.cipherOf 0).recs, (t.cipherOf 0).request) =
      (5, 4#8, 1, [], none) := by decide +kernel

/-- Case 4: frame 6,757 takes the soft crossing. -/
theorem test_case4_soft : let t := run (.admissionRequest 0) (asking 9600 (with7 (case4 6757 655332) 0 up))
    ((t.ctx 7).nextPn, (t.ctx 7).blocks, (t.ctx 7).softReached, (t.ctx 7).flags, (t.slot 133).inFlight) =
      (6758, 655429, true, 128#8, 1) := by decide +kernel

/-- Case 4: frame 7,432 without a next slot makes the context HALTED, and the frame is a no-key drop. -/
theorem test_case4_halt : let t := run (.admissionRequest 0) (asking 9600 (with7 (case4 7432 720807) 0 up))
    ((t.ctx 7).state, (t.ctx 7).nextPn, (t.ctx 7).blocks, (t.ctx 7).flags, look (t.ctx 7).counters.vals 2) =
        (.halted, 0, 720807, 144#8, 1) ∧
      ((t.cipherOf 0).recs, (t.slot 133).state) = ([], .scrubbing) := by decide +kernel

/-- Case 4: with the next slot READY frame 7,432 is admitted under it with PN 1, and the count becomes 97. -/
theorem test_case4_switch :
    let t := run (.admissionRequest 0)
      (asking 9600 (with7 { case4 7432 720807 with next := some (134, .ready), softReached := true } 2 up))
    ((t.ctx 7).current, (t.ctx 7).nextPn, (t.ctx 7).blocks, (t.ctx 7).phase, (t.slot 133).state, (t.slot 134).state,
      (t.slot 134).inFlight) = (some 134, 2, 97, 1#2, .draining, .current, 1) := by decide +kernel

/-- R29, R69: with frames in flight the slot of a halted key drains. R38, R187, R188: KEY_WANTED and HALTED give their records in
the order of R38, and both show the context HALTED. -/
theorem test_halt_slot_and_rises :
    let t := run (.admissionRequest 0) (noticing 62 (asking 9600 (with7 { case4 7432 720807 with enables := 255#8 } 2 up)))
    ((t.slot 133).state, (t.slot 133).inFlight, (t.slot 134).state) = (.draining, 2, .ready) ∧
      t.notice.queue.drop 62 = [⟨.context 7 .keyWanted, 41#16, .direct, .halted, 0#2, 0, 720807, 0, 2304⟩,
        ⟨.context 7 .halted, 41#16, .direct, .halted, 0#2, 0, 720807, 0, 2304⟩] := by decide +kernel

/-- Case 6: PN 4,294,967,295 is issued under the old slot, and the context switches in the same event. -/
theorem test_case6 :
    let t := run (.admissionRequest 0)
      (asking 9600 (with7 { act with nextPn := 4294967295, softReached := true, next := some (134, .ready) } 0 up))
    ((t.cipherOf 0).recs.map (fun r => match r with | .protect p => (p.pn, p.slot.val) | _ => (0, 0)), (t.ctx 7).nextPn,
      (t.ctx 7).phase, (t.ctx 7).current) = ([(4294967295, 133)], 1, 1#2, some 134) := by decide +kernel

/-- Lane 0 with a FLUSHED record whose request is outstanding. -/
def flushedAsking (s : State) : State := s.setCipher 0 { s.cipherOf 0 with recs := [.flushed] }

/-- R117: a FLUSHED record answered ADMITTED gives up its reference, is reported and counted; one refused is removed. -/
theorem test_flushed_answer :
    (let t := run (.admissionRequest 0) (flushedAsking (asking 9600 (with7 (case4 5 0) 0 up)))
     ((t.cipherOf 0).recs, (t.slot 133).inFlight, t.transit.flushReports, look (t.cipherOf 0).flushDrops.vals 0,
       (t.ctx 7).nextPn) = ([], 0, [⟨7, 41#16, false⟩], 1, 6)) ∧
      (let t := run (.admissionRequest 0) (flushedAsking (asking 9600 up))
       ((t.cipherOf 0).recs, (t.cipherOf 0).request, t.transit.laneReports) = ([], none, [(0, .noContext)])) := by
  decide +kernel

/-- R55: an UNDEFINED context, an oversize frame one byte past the limit, and a KEYLESS and a HALTED one at the limit; the youngest
record RESERVED and FLUSHED. -/
theorem witness_AdmissionRefusals :
    let s := asking 1517 up
    (((flushedAsking s).cipherOf 0).request = some ⟨7, 1514, true, 210#12, 0, 1517⟩ ∧
        ((flushedAsking s).cipherOf 0).recs = [] ++ [.flushed]) ∧
    ((s.cipherOf 0).request = some ⟨7, 1514, true, 210#12, 0, 1517⟩ ∧ (s.cipherOf 0).recs = [] ++ [.reserved case1 0 7]) ∧
      (s.ctx 7).state = .undefined ∧ (act.state ≠ .undefined ∧ 1545 < 1514 + 28 + 4) ∧
      ({ act with state := .keyless, current := none, nextPn := 0 } : Ctx).state = .keyless ∧
      ({ act with state := .halted, current := none, nextPn := 0 } : Ctx).state = .halted ∧ ¬1546 < 1514 + 28 + 4 :=
  ⟨⟨rfl, rfl⟩, ⟨rfl, rfl⟩, by decide +kernel, by decide, rfl, rfl, by decide⟩

/-- An admission at the limit of its length and its blocks: the count lands on the hard limit. The youngest record is RESERVED, and
FLUSHED. -/
theorem witness_AdmissionIssuesTheNextPn :
    let r := { case4 5 (720896 - 97) with softReached := true }
    let s := asking 1554 (with7 r 0 up)
    (s.cipherOf 0).request = some ⟨7, 1514, true, 210#12, 0, 1554⟩ ∧ (s.cipherOf 0).recs = [] ++ [.reserved case1 0 7] ∧
      r.state = .active ∧ r.current = some 133 ∧ 1550 + 4 ≤ 1554 ∧ r.blocks + 97 ≤ r.thresholds.blockHard * 65536 ∧
      r.softReached = true ∧ r.nextPn < 4294967295 ∧ slotAccepts (s.slot 133) 7 r.generation = true ∧
      ((flushedAsking s).cipherOf 0).recs = [] ++ [.flushed] :=
  ⟨rfl, rfl, rfl, rfl, by decide, by decide, rfl, by decide, by decide +kernel, rfl⟩

/-- The PN soft threshold is met exactly; the block soft threshold in frame 6,757 of case 4 of 3.9; both forms of the
crossing. -/
theorem witness_SoftCrossingAtAnAdmission :
    let b := case4 6757 655332
    let r := { act with thresholds := { Thresholds.reset with pnSoft := 5 }, nextPn := 5 }
    let n := { r with options := ⟨false, false, true⟩, next := some (134, NextCond.ready) }
    let s := asking 9600 (with7 r 0 up)
    ((s.cipherOf 0).request = some ⟨7, 1514, true, 210#12, 0, 9600⟩ ∧ (s.cipherOf 0).recs = [] ++ [.reserved case1 0 7] ∧
        (s.rxOf 0).headAction = none) ∧
      (r.state = .active ∧ r.current = some 133 ∧ outLen 1514 (originLen r.options.originLabel) + 4 ≤ 9600 ∧
        blocksInSet r.condition = false ∧ r.softReached = false ∧ r.thresholds.pnSoft ≤ r.nextPn ∧
        r.nextPn < 4294967295 ∧ r.options.autoRoll = false ∧ r.next = none) ∧
      (n.state = .active ∧ n.thresholds.pnSoft ≤ n.nextPn ∧ n.options.autoRoll = true ∧ n.next = some (134, .ready)) ∧
      (b.state = .active ∧ b.current = some 133 ∧ outLen 1514 (originLen b.options.originLabel) + 4 ≤ 9600 ∧
        blocksInSet b.condition = true ∧ b.softReached = false ∧ ¬b.thresholds.pnSoft ≤ b.nextPn ∧ b.nextPn < 4294967295 ∧
        b.blocks + reqBlocks b ⟨7, 1514, true, 210#12, 0, 9600⟩ ≤ b.thresholds.blockHard * 65536 ∧
        b.thresholds.blockSoft * 65536 ≤ min (b.blocks + reqBlocks b ⟨7, 1514, true, 210#12, 0, 9600⟩) counterMax) ∧
      ((s.slot 133).owner = some (7, n.generation) ∧ (s.slot 133).state = .current ∧ (s.slot 134).owner = some (7, n.generation) ∧
        (s.slot 134).state = .ready ∧ n.current ≠ some 134) :=
  ⟨⟨rfl, rfl, rfl⟩, by decide, by decide, by decide, by decide +kernel⟩

/-- One block past the hard limit; without a next slot and with a READY one. -/
theorem witness_BlockHardLimitStopsTheKey :
    let r := case4 7432 (720896 - 96)
    let n := { r with next := some (134, NextCond.ready) }
    let s := asking 9600 (with7 r 0 up)
    ((s.cipherOf 0).request = some ⟨7, 1514, true, 210#12, 0, 9600⟩ ∧ (s.cipherOf 0).recs = [] ++ [.reserved case1 0 7] ∧
        (s.rxOf 0).headAction = none) ∧
      (r.state = .active ∧ r.current = some 133 ∧ outLen 1514 (originLen r.options.originLabel) + 4 ≤ 9600 ∧
        blocksInSet r.condition = true ∧
        r.thresholds.blockHard * 65536 < r.blocks + reqBlocks r ⟨7, 1514, true, 210#12, 0, 9600⟩ ∧ nextReady r = false) ∧
      (n.next = some (134, .ready) ∧ 1 < n.thresholds.pnSoft ∧
        min (reqBlocks n ⟨7, 1514, true, 210#12, 0, 9600⟩) counterMax < n.thresholds.blockSoft * 65536) ∧
      ((s.slot 133).owner = some (7, n.generation) ∧ (s.slot 133).state = .current ∧ (s.slot 133).inFlight = 0 ∧
        (s.slot 134).owner = some (7, n.generation) ∧ (s.slot 134).state = .ready ∧ (133 : SlotIx) ≠ 134) :=
  ⟨⟨rfl, rfl, rfl⟩, by decide, by decide, by decide +kernel⟩

theorem witness_LastPacketNumberEndsTheTenure :
    let r := { act with nextPn := 4294967295 }
    let n := { r with next := some (134, NextCond.ready) }
    let s := asking 9600 (with7 r 0 up)
    ((s.cipherOf 0).request = some ⟨7, 1514, true, 210#12, 0, 9600⟩ ∧ (s.cipherOf 0).recs = [] ++ [.reserved case1 0 7] ∧
        (s.rxOf 0).headAction = none) ∧
      (r.state = .active ∧ r.current = some 133 ∧ outLen 1514 (originLen r.options.originLabel) + 4 ≤ 9600 ∧
        blockHardMet r (reqBlocks r ⟨7, 1514, true, 210#12, 0, 9600⟩) = false ∧ r.nextPn = 4294967295 ∧
        nextReady r = false) ∧ n.next = some (134, .ready) ∧
      ((s.slot 133).owner = some (7, n.generation) ∧ (s.slot 133).state = .current ∧ (s.slot 134).owner = some (7, n.generation) ∧
        (s.slot 134).state = .ready ∧ n.current ≠ some 134) :=
  ⟨⟨rfl, rfl, rfl⟩, by decide, rfl, by decide +kernel⟩

/-! ## Cipher Lanes -/

/-- The record of 6.5. -/
def rec65 : ProtectRec :=
  ⟨case1, 0, 7, 41#16, 133, 6757, 2#2, 0x00A1B2C3#32, 2, true, true, 1550⟩

/-- Lane 0 holds records, its next slot DRAINING with one frame in flight. -/
def lane0 (recs : List Rec) (s : State) : State := s.setCipher 0 { CipherLane.reset with recs := recs }

/-- The worked example of 6.5: bytes 12 to 35 of the envelope, and the nonce. -/
theorem test_envelope_65 :
    ((envelopeAad up 0 rec65).length, slice (envelopeAad up 0 rec65) 12 24, envelopeNonce ⟨.draining, none, 1#32, 0, 1, 0⟩ rec65) =
      (36, bytes [0x81, 0, 0xA0, 210, 0x9D, 0x4E, 1, 14, 0, 0xA1, 0xB2, 0xC3, 0, 0, 0x1A, 0x65, 0, 1, 0, 210, 0, 0, 0, 7],
        bytes [0, 0, 0, 1, 0, 0xA1, 0xB2, 0xC3, 0, 0, 0x1A, 0x65]) := by decide +kernel

/-- R110: a PASS record is handed over unchanged and its transmission starts. -/
theorem test_pass_completion : let t := run (.passRecordCompletion 0) (lane0 [.pass case1 3] up)
    ((t.cipherOf 0).recs, (t.campusOf 0).sending.map (fun p => (p.1, p.2.lOut))) = ([], some (3, 1514)) := by decide +kernel

theorem witness_PassRecordCompletes : ((lane0 [.pass case1 3] up).cipherOf 0).recs = .pass case1 3 :: [] := rfl

/-- R111: the slot of the record is FREE, so the key is gone. -/
theorem test_protect_flushed : let t := run (.protectRecordCompletion 0) (lane0 [.protect rec65] up)
    ((t.cipherOf 0).recs, look (t.cipherOf 0).flushDrops.vals 0, t.transit.flushReports, (t.campusOf 0).sending) =
      ([], 1, [⟨7, 41#16, false⟩], none) := by decide +kernel

/-- The key usable in CURRENT and in DRAINING, and gone: the slot FREE, and READY under the record's owner. -/
theorem witness_ProtectRecordCompletes :
    ((lane0 [.protect rec65] (with7 act 1 up)).cipherOf 0).recs = .protect rec65 :: [] ∧
      (((with7 act 1 up).slot 133).state = .current ∧ ((with7 act 1 up).slot 133).owner = some (7, 41#16)) ∧
      (⟨.draining, some (7, 41#16), 0#32, 0, 1, 0#256⟩ : Slot).state = .draining ∧
      ¬((up.slot 133).state = .current ∨ (up.slot 133).state = .draining) ∧
      (⟨.ready, some (7, 41#16), 0#32, 0, 0, 0#256⟩ : Slot).state ≠ .scrubbing :=
  ⟨rfl, by decide +kernel, rfl, by decide +kernel, by decide⟩

theorem witness_EnvelopeLayout : 60 ≤ rec65.frame.length ∧ rec65.pn < 4294967296 ∧ rec65.originLabel = true := by
  decide +kernel

/-- A slot in a state with a number of frames in flight, of context 7 on generation 41. -/
def slotAt (st : SlotState) (n : Nat) : State := up.setSlot 133 ⟨st, some (7, 41#16), 5#32, 1, n, 9#256⟩

/-- R68: the last release of a DRAINING slot starts its scrub. -/
theorem test_inFlightDecrease :
    ((run (.inFlightDecrease 133 7 41#16) (slotAt .draining 1)).slot 133,
      ((run (.inFlightDecrease 133 7 41#16) (slotAt .current 1)).slot 133).inFlight,
      ((run (.inFlightDecrease 133 7 40#16) (slotAt .current 1)).slot 133).inFlight) =
    (⟨.scrubbing, some (7, 41#16), 0#32, 0, 0, 0#256⟩, 0, 1) := by decide +kernel

/-- The last reference of a DRAINING slot, one of two, and the last of a CURRENT one. -/
theorem witness_InFlightReleaseReachesItsSlot :
    (((slotAt .draining 1).slot 133).owner = some (7, 41#16) ∧ ((slotAt .draining 1).slot 133).state ≠ .free ∧
        ((slotAt .draining 1).slot 133).state ≠ .scrubbing ∧
        holders 133 7 41#16 (slotAt .draining 1) < ((slotAt .draining 1).slot 133).inFlight) ∧
      (((slotAt .draining 1).slot 133).state = .draining ∧ ((slotAt .draining 1).slot 133).inFlight = 1) ∧
      (((slotAt .draining 2).slot 133).inFlight ≠ 1 ∧ holders 133 7 41#16 (slotAt .draining 2) < 2) ∧
      (((slotAt .current 1).slot 133).state ≠ .draining ∧ holders 133 7 41#16 (slotAt .current 1) < 1) := by
  decide +kernel

/-- The five records of 6.6: four are discarded, and the fifth becomes FLUSHED. -/
theorem test_flush_66 :
    let s := lane0 [.pass [] 1, .protect rec65, .protect { rec65 with ctx := 9, gen := 3#16 }, .pass [] 0, .reserved case1 0 7] up
    let t := run (.laneFlush 0 .zeroize) s
    ((t.cipherOf 0).recs, look (t.cipherOf 0).flushDrops.vals 0, t.transit.flushReports) =
      ([.flushed], 4, [⟨7, 41#16, false⟩, ⟨9, 3#16, false⟩]) := by decide +kernel

/-- R68, R116: two releases of one slot; and a looked-up head frame is taken after the flush. -/
theorem test_flush_releases :
    ((run (.laneFlush 0 .zeroize) ((slotAt .draining 2).setCipher 0 { CipherLane.reset with recs := [.protect rec65, .protect rec65] })).slot
        133).state = .scrubbing ∧
      ((run (.laneFlush 0 .zeroize) ((slotAt .draining 3).setCipher 0 { CipherLane.reset with recs := [.protect rec65, .protect rec65] })).slot
        133).inFlight = 1 ∧
      ((run (.laneFlush 0 .zeroize) (lane0 [.pass [] 1] (up.setRx 0 { TrunkRx.reset with buffer := [case1], headAction := some (.pass 1 none) }))).cipherOf
        0).recs = [.pass case1 1] := by decide +kernel

/-- A slot without an owner and one with, and a lane whose head has not been looked up. -/
theorem witness_FlushDiscardsTheRecords : (up.rxOf 0).headAction = none ∧ (up.cipherOf 0).flushDrops.bounded ∧
    (up.slot 133).owner = none ∧ ((slotAt .draining 2).slot 133).owner = some (7, 41#16) :=
  ⟨rfl, zero_bounded 1, by decide +kernel, by decide +kernel⟩

/-! ## Campus Queues: the worked example of 7.6 -/

/-- The lane of 7.6 after event 186. -/
def burst : State :=
  up.setCampus 0 { up.campusOf 0 with
    queues := put (up.campusOf 0).queues 1 (List.replicate 186 ⟨[], 88⟩), sending := some (0, ⟨[], 1550⟩),
    limits := #v[262144, 16384, 99328, 65536] }

/-- Event 187: the frame is dropped and reported. -/
theorem test_burst_drop : let t := handOver 0 1 ⟨[], 88⟩ (some (40, 1#16)) burst
    (classOccupancy (t.campusOf 0) 1, look (t.campusOf 0).counters.vals 1, t.transit.queueReports) =
      (16368, 1, [(40, 1#16)]) := by decide +kernel

/-- R122, R128: a frame is admitted as it was handed over, at the tail of its class queue. -/
theorem test_burst_admitted : let t := handOver 0 1 ⟨[7#8, 9#8], 2⟩ none burst
    (look (t.campusOf 0).queues 1).drop 185 = [⟨[], 88⟩, ⟨[7#8, 9#8], 2⟩] ∧ (t.campusOf 0).limits = (burst.campusOf 0).limits := by
  decide +kernel

/-- Events 188 and 189: G is admitted, and goes out first when F has been sent. -/
theorem test_burst_priority :
    let t := run (.campusTransmitEnd 0) (handOver 0 3 ⟨[], 1550⟩ none burst)
    ((t.campusOf 0).sending, totalOccupancy (t.campusOf 0), look (t.campusOf 0).counters.vals 7) =
      (some (3, ⟨[], 1550⟩), 17918, 1550) := by decide +kernel

/-- Room to the byte in the class, a byte too few, room to the byte in the buffer, a byte too few, and the link DOWN. -/
theorem witness_HandOverAdmitsOrDrops :
    let q := burst.campusOf 0
    let f := { q with queues := put q.queues 3 [⟨[], 1048576 - 17918⟩], limits := Vector.replicate 4 1048576 }
    q.linkUp = true ∧ (classOccupancy q 1 + 16 ≤ look q.limits 1 ∧ totalOccupancy q + 16 ≤ 1048576) ∧
      look q.limits 1 < classOccupancy q 1 + 17 ∧ f.linkUp = true ∧
      (classOccupancy f 2 + 0 ≤ look f.limits 2 ∧ totalOccupancy f + 0 ≤ 1048576) ∧ 1048576 < totalOccupancy f + 1 ∧
      (State.reset.campusOf 0).linkUp = false := by decide +kernel

theorem test_campus_start_and_links :
    let s := burst.setCampus 0 { burst.campusOf 0 with sending := none }
    ((run (.campusTransmitStart 0) s).campusOf 0).sending = some (1, ⟨[], 88⟩) ∧
      look ((run (.campusLinkDown 0) burst).campusOf 0).counters.vals 4 = 187 ∧
      totalOccupancy ((run (.campusLinkDown 0) burst).campusOf 0) = 0 ∧
      ((run (.campusLinkUp 1) up).campusOf 1).linkUp = true := by decide +kernel

/-- The highest class with a frame is class 1; F is in transmission; both link states. -/
theorem witness_CampusTransmitter :
    let s := burst.setCampus 0 { burst.campusOf 0 with sending := none }
    ((s.campusOf 0).linkUp = true ∧ (s.campusOf 0).sending = none ∧
        look (s.campusOf 0).queues 1 = ⟨[], 88⟩ :: List.replicate 185 ⟨[], 88⟩ ∧
        ∀ d : Cls, (1 : Cls).val < d.val → look (s.campusOf 0).queues d = []) ∧
      (burst.campusOf 0).sending = some (0, ⟨[], 1550⟩) ∧ (burst.campusOf 0).linkUp = true ∧
      (State.reset.campusOf 0).linkUp = false := by decide +kernel

/-! ## Key Store -/

/-- A wrapped key that fails its check. -/
def badWrap : Bytes := zeros 40

/-- A state with jobs, a running job and KEK entry 1 VALID. -/
def jobs (js : List Job) (r : Option Running) (s : State) : State :=
  s.setKs { s.ks with jobs := js, running := r, keks := put s.ks.keks 1 (some 9#256), mgmtKey := some 8#256 }

/-- A DATA job of context 7 for slot 133. -/
def dataJob : Job := .data 133 7 41#16 badWrap

/-- Slot 133 waits for its job, unwrapped under a KEK entry. -/
def unwrapping (kek : KekIx) (s : State) : State := s.setSlot 133 ⟨.unwrapping, some (7, 41#16), 0#32, kek, 0, 0#256⟩

/-- R77: a job whose KEK is EMPTY fails at once, and the next job starts under the management key. -/
theorem test_job_start : let t := run .unwrapJobStart (jobs [dataJob, .mk badWrap 3] none (unwrapping 0 up))
    (t.ks.running, t.ks.jobs, t.ks.lastFailure, t.transit.results) =
      (some ⟨.mk badWrap 3, 8#256⟩, [], some (.data 133 7 41#16, .kekAbsent), [⟨133, 7, 41#16, .failure .kekAbsent⟩]) := by
  decide +kernel

/-- Each kind of job at the head, a DATA job under a VALID and under an EMPTY entry, and a running job whose check fails; that an
unwrap can succeed is shown by `unwraps`. -/
theorem witness_DataJobRuns :
    let s := jobs [dataJob] none (unwrapping 1 up)
    let r := jobs [] (some ⟨dataJob, 9#256⟩) (unwrapping 1 up)
    (s.ks.running = none ∧ s.ks.jobs = dataJob :: [] ∧ look s.ks.keks (s.slot 133).kek = some 9#256) ∧
      look (jobs [dataJob] none (unwrapping 0 up)).ks.keks 0 = none ∧
      ((jobs [.kek 2 badWrap 5] none up).ks.jobs = .kek 2 badWrap 5 :: [] ∧ (jobs [] none up).ks.mgmtKey = some 8#256) ∧
      (jobs [.mk badWrap 5] none up).ks.jobs = .mk badWrap 5 :: [] ∧
      (r.ks.running = some ⟨.data 133 7 41#16 badWrap, 9#256⟩ ∧ (r.slot 133).state = .unwrapping) := by decide +kernel

/-- The KEK and the wrapped key of RFC 3394, section 4.6: an unwrap that succeeds. -/
theorem witness_unwraps :
    unwrapKey 0x000102030405060708090A0B0C0D0E0F101112131415161718191A1B1C1D1E1F#256
      (octetsOf 40 0x28C9F404C4B810F4CBCCB35CFB87F8263F5786E2D80ED326CBC7F0E71A99F43BFB988B9B7A02DD21) =
    some 0x00112233445566778899AABBCCDDEEFF000102030405060708090A0B0C0D0E0F#256 := by decide +kernel

/-- A running KEK and MK job, with and without the command that waits. -/
theorem witness_KekAndMkJobsComplete :
    let c : Command := { cmd 0x40 [] with stage := .waitJob }
    ((jobs [] (some ⟨.kek 3 badWrap 1, 8#256⟩) (at_ c up)).ks.running = some ⟨.kek 3 badWrap 1, 8#256⟩ ∧
        (jobs [] none up).ks.jobs = []) ∧
      waitingCommand 1 (at_ c up) = some c ∧ waitingCommand 1 up = none ∧
      (jobs [] (some ⟨.mk badWrap 1, 8#256⟩) up).ks.running = some ⟨.mk badWrap 1, 8#256⟩ := by decide +kernel

/-- A result in transit for slot 133 of context 7. -/
def result (o : UnwrapOutcome) (s : State) : State :=
  s.setTransit { s.transit with results := [⟨133, 7, 41#16, o⟩] }

/-- Context 7 waits for slot 133 as its next slot. -/
def pending7 (st : CtxState) (pend : Bool) : Ctx :=
  { Ctx.reset with state := st, generation := 41#16, next := some (133, .pending), switchPending := pend, initialPhase := 3#2,
                   phase := 3#2 }

/-- R79, R93, R100: the first activation takes the initial phase; NEXT_READY and SWITCHED rise. -/
theorem test_first_activation : let t := run (.dataResult 0) (result .success (unwrapping 1 (up.setCtx 7 (pending7 .keyless false))))
    ((t.ctx 7).state, (t.ctx 7).current, (t.ctx 7).phase, (t.ctx 7).nextPn, (t.ctx 7).flags, (t.slot 133).state) =
      (.active, some 133, 3#2, 1, 96#8, .current) := by decide +kernel

/-- R79: a result that is no longer bound is set aside, and its slot is scrubbed. -/
theorem test_set_aside : let t := run (.dataResult 0) (result .success (unwrapping 1 up))
    (t.ks.setAside, (t.slot 133).state, (t.ctx 7).flags) = (1, .scrubbing, 0#8) := by decide +kernel

/-- The four rows of R79, and each state in which a success is bound. -/
theorem witness_DataResultIsBoundOrSetAside :
    let r : DataResult := ⟨133, 7, 41#16, .success⟩
    let s := unwrapping 1 (up.setCtx 7 (pending7 .keyless false))
    ((result .success s).transit.results[0]? = some r ∧ (result (.failure .check) s).transit.results[0]? =
        some ⟨133, 7, 41#16, .failure .check⟩) ∧
      ¬(up.slot 133).state = .unwrapping ∧
      ((s.slot 133).state = .unwrapping ∧ (s.slot 133).owner = some (7, 41#16)) ∧
      ((s.ctx 7).generation = 41#16 ∧ (s.ctx 7).next.map Prod.fst = some 133) ∧ (up.ctx 7).generation ≠ 41#16 ∧
      (pending7 .keyless false).state = .keyless ∧ (pending7 .halted false).state = .halted ∧
      ((pending7 .active true).switchPending = true ∧ (pending7 .active true).current ≠ some 133) ∧
      ((pending7 .active false).state = .active ∧ (pending7 .active false).switchPending = false) ∧
      (let n := noticing 62 (result .success (unwrapping 1 (up.setCtx 7 { pending7 .keyless false with
         enables := 96#8, flags := 159#8 })))
       n.notice.master = true ∧ hasFlag (n.ctx 7).enables CtxFlag.nextReady.bit = true ∧
         hasFlag (n.ctx 7).enables CtxFlag.switched.bit = true ∧ hasFlag (n.ctx 7).flags CtxFlag.nextReady.bit = false ∧
         hasFlag (n.ctx 7).flags CtxFlag.switched.bit = false ∧ n.notice.queue ≠ [] ∧ n.notice.queue.length ≤ 62) ∧
      (let p := with7 { pending7 .active true with current := some 134 } 0 up
       (p.ctx 7).current = some 134 ∧ (133 : SlotIx) ≠ 134 ∧ (p.ctx 7).current ≠ some 133) := by decide +kernel

/-- R38, R79, R187, R188: the two rises of a first activation, of which SWITCHED alone is enabled. -/
theorem test_first_activation_rise :
    let s := noticing 3 (result .success (unwrapping 1 (up.setCtx 7 { pending7 .keyless false with enables := 32#8 })))
    (run (.dataResult 0) s).notice.queue.drop 3 =
      [⟨.context 7 .switched, 41#16, .direct, .active, 3#2, 1, 0, 0, 2304⟩] := by decide +kernel

theorem test_scrub : let s := slotAt .scrubbing 0
    ((run (.scrubComplete 133) s).slot 133, (run (.scrubComplete 133) (slotAt .ready 0)).slot 133) =
      (⟨.free, none, 5#32, 1, 0, 9#256⟩, ⟨.ready, some (7, 41#16), 5#32, 1, 0, 9#256⟩) := by decide +kernel

theorem witness_ScrubCompletes : ((slotAt .scrubbing 0).slot 133).state = .scrubbing := by decide +kernel

/-! ## Age Timer -/

/-- The time base of 8.8: prescale 2 and count 5. -/
def base88 (pre cnt owed : Nat) (p : Option Pass) : State :=
  up.setAge { up.age with prescale := 2, count := 5, prescaleDiv := pre, countDiv := cnt, owed := owed, pass := p }

/-- 8.8: the tick at 10 µs starts P1 with increment 1; the one at 20 µs is owed and raises SWEEP_LAG. -/
theorem test_ticks_88 :
    (run .referenceTick (base88 1 4 0 none)).age.pass = some ⟨1, 0, 1023, 0⟩ ∧
      (run .referenceTick (base88 1 4 0 (some ⟨1, 0, 1023, 9⟩))).age.owed = 1 ∧
      (run .referenceTick (base88 1 4 0 (some ⟨1, 0, 1023, 9⟩))).notice.flags = 16#6 ∧
      (run .countStep (base88 0 3 0 none)).age.countDiv = 4 := by decide +kernel

/-- 8.8: at 170 µs fifteen ticks are owed and one is lost; P1 completes and P2 starts with increment 15. -/
theorem test_lost_88 :
    (run .ageTick (base88 0 0 15 (some ⟨1, 0, 1023, 9⟩))).age.lostTicks = 1 ∧
      (run .sweepVisit (base88 0 0 15 (some ⟨1, 0, 1023, 1023⟩))).age.pass = some ⟨15, 0, 1023, 0⟩ ∧
      (run .passStart (base88 0 0 3 none)).age.pass = some ⟨3, 0, 1023, 0⟩ := by decide +kernel

/-- The dividers a step before their wraps and at them; a tick while IDLE, owed at 14 and lost at 15; a range of one index and an
empty one. -/
theorem witness_TimeBaseProducesAgeTicks :
    up.age.enable = true ∧ ((base88 0 3 0 none).age.prescaleDiv + 1 < (base88 0 3 0 none).age.prescale ∧
        (base88 1 4 0 none).age.prescale ≤ (base88 1 4 0 none).age.prescaleDiv + 1) ∧
      ((base88 0 3 0 none).age.countDiv + 1 < (base88 0 3 0 none).age.count ∧
        (base88 1 4 0 none).age.count ≤ (base88 1 4 0 none).age.countDiv + 1) ∧
      ((base88 0 0 0 none).age.pass = none ∧ (base88 0 0 0 none).age.owed = 0 ∧ 0 < (base88 0 0 1 none).age.owed) ∧
      ((base88 0 0 14 (some ⟨1, 0, 0, 0⟩)).age.pass.isSome = true ∧ (base88 0 0 14 none).age.owed < 15 ∧
        15 ≤ (base88 0 0 15 none).age.owed) ∧
      ((7 : CtxIx).val ≤ (7 : CtxIx).val ∧ (7 : CtxIx).val < (8 : CtxIx).val) := by decide

/-- Case 5 of 3.9: context 12 ages under a pass with an increment. -/
def case5 (age inc : Nat) (soft : Bool) : State :=
  (up.setCtx 12 { act with condition := 2, thresholds := ⟨4294967295, 4294967295, 4294967295, 3590, 3600⟩, age := age,
                           softReached := soft }).setAge { up.age with pass := some ⟨inc, 0, 20, 12⟩ }

/-- Case 5: the first and the third row, and the position moves on. -/
theorem test_case5 :
    (let t := run .sweepVisit (case5 3588 15 false)
     ((t.ctx 12).state, (t.ctx 12).age, (t.ctx 12).flags, (t.ctx 12).softReached) = (.halted, 3603, 144#8, true)) ∧
      (let t := run .sweepVisit (case5 3596 3 true)
       ((t.ctx 12).state, (t.ctx 12).age, (t.ctx 12).flags, t.age.pass) =
         (.active, 3599, 0#8, some ⟨3, 0, 20, 13⟩)) := by decide +kernel

/-- R146: the visit of an abandoned pass, before the context's zeroize and after it. -/
theorem test_left_visit : let s := run .ageTimerZeroize (case5 3596 3 true)
    (((run .sweepVisit s).ctx 12).age, (run .sweepVisit s).transit.visits) = (3599, []) ∧
      ((run .sweepVisit (run .contextZeroize s)).ctx 12).age = 0 := by decide +kernel

/-- A visit of the running pass and one left by an abandoned pass. A context not ACTIVE, one whose age is not in its set at the end
of its range, one that meets the hard limit exactly, with and without a READY next slot; a position before the end of the pass
and one at it. -/
theorem witness_SweepVisitAgesTheContext :
    (nextVisit (case5 3597 3 true) = some (none, 12, 3) ∧
      nextVisit (run .ageTimerZeroize (case5 3597 3 true)) = some (some 0, 12, 3) ∧
      (case5 3597 3 true).age.pass.isSome = true ∧ (run .ageTimerZeroize (case5 3597 3 true)).transit.visits ≠ []) ∧
    (up.ctx 12).state ≠ .active ∧ (act.state = .active ∧ ageInSet act.condition = false) ∧
      (65535 < 65535 + 1 ∧ (case5 3597 3 true).age.pass = some ⟨3, 0, 20, 12⟩ ∧ (12 : CtxIx).val < (20 : CtxIx).val ∧
        (13 : CtxIx).val = (12 : CtxIx).val + 1 ∧ (20 : CtxIx).val ≤ (20 : CtxIx).val) ∧
      (((case5 3597 3 true).ctx 12).state = .active ∧ ageInSet ((case5 3597 3 true).ctx 12).condition = true ∧
        1 ≤ ((case5 3597 3 true).ctx 12).thresholds.ageHard ∧
        ((case5 3597 3 true).ctx 12).thresholds.ageHard ≤ min (((case5 3597 3 true).ctx 12).age + 3) 65535 ∧
        nextReady ((case5 3597 3 true).ctx 12) = false) ∧
      ({ act with next := some (134, .ready) } : Ctx).next = some (134, .ready) ∧
      (ageInSet ((case5 3587 2 false).ctx 12).condition = true ∧ ((case5 3587 2 false).ctx 12).thresholds.ageHard ≤ 65535 ∧
        ((case5 3587 2 false).ctx 12).age + 2 < ((case5 3587 2 false).ctx 12).thresholds.ageSoft ∧
        ((case5 3588 2 false).ctx 12).thresholds.ageSoft ≤ ((case5 3588 2 false).ctx 12).age + 2 ∧
        ((case5 3588 2 false).ctx 12).softReached = false ∧
        ((case5 3597 2 true).ctx 12).age + 2 < ((case5 3597 2 true).ctx 12).thresholds.ageHard ∧
        ({ act with options := ⟨false, false, true⟩ } : Ctx).options.autoRoll = true) ∧
      (let s := (case5 3597 3 true).setSlot 133 ⟨.current, some (12, 41#16), 0#32, 0, 0, 0#256⟩
       (s.ctx 12).current = some 133 ∧ (s.slot 133).owner = some (12, (s.ctx 12).generation) ∧ (s.slot 133).state = .current) := by
  decide +kernel

/-- R52, R60: a visit that meets the age soft threshold exactly takes the crossing; one below it only ages. -/
theorem test_age_soft :
    (let t := run .sweepVisit (case5 3588 2 false)
     ((t.ctx 12).state, (t.ctx 12).age, (t.ctx 12).flags, (t.ctx 12).softReached) = (.active, 3590, 128#8, true)) ∧
      (let t := run .sweepVisit (case5 3587 2 false)
       ((t.ctx 12).age, (t.ctx 12).flags, (t.ctx 12).softReached) = (3589, 0#8, false)) := by decide +kernel

/-! ## Return Merges and notices -/

theorem test_campus_frame :
    ((run (.campusFrameReceived 0 (rxOk (zeros 60))) up).mergeOf 0).sending = some (.relayed (zeros 60)) ∧
      look ((run (.campusFrameReceived 0 ⟨zeros 64, .badFcs⟩) up).mergeOf 0).counters.vals 2 = 1 ∧
      look ((run (.campusFrameReceived 1 (rxOk (zeros 60))) up).mergeOf 1).counters.vals 1 = 1 := by decide +kernel

theorem relay_zeros (n : Nat) : relayOccupancy { ReturnMerge.reset with relay := [zeros n] } = n :=
  octetCount_zeros n

/-- A Relay FIFO that a 60-byte frame fills exactly, and one a byte fuller; RELAY_DROP set, enabled with a Notice Queue that is
empty, holds 63 records and is full, and not enabled. -/
theorem witness_CampusFrameReception :
    (64 ≤ (rxOk (zeros 60)).octets.length ∧ (rxOk (zeros 60)).octets.length ≤ 9216 ∧ (rxOk (zeros 60)).ending = .good) ∧
      ¬64 ≤ (zeros 63).length ∧ (State.reset.mergeOf 0).linkUp = false ∧ (up.mergeOf 0).linkUp = true ∧
      relayOccupancy { ReturnMerge.reset with relay := [zeros 65476] } + (zeros 60).length ≤ 65536 ∧
      65536 < relayOccupancy { ReturnMerge.reset with relay := [zeros 65477] } + (zeros 60).length ∧
      (hasFlag 4#6 DevFlag.relayDrop.bit = true ∧ hasFlag up.notice.flags DevFlag.relayDrop.bit = false ∧
        up.notice.master = false ∧ (noticing 0 up).notice.master = true ∧
        hasFlag (noticing 0 up).notice.enables DevFlag.relayDrop.bit = true) ∧
      ((noticing 0 up).notice.queue = [] ∧ (noticing 63 up).notice.queue ≠ [] ∧ (noticing 63 up).notice.queue.length < 64 ∧
        64 ≤ (noticing 64 up).notice.queue.length) :=
  ⟨by decide, by decide, by decide, by decide, by simp [relay_zeros, zeros_length],
    by simp [relay_zeros, zeros_length], by decide, by decide⟩

/-- Lane 0 with control frames and relayed frames waiting, and a frame in transmission. -/
def sending (control : List ControlFrame) (relay : List Bytes) (f : Option TrunkSend) : State :=
  up.setMerge 0 { up.mergeOf 0 with control := control, relay := relay, sending := f }

theorem test_trunk :
    ((run (.trunkTransmitStart 0) (sending [⟨[], true⟩] [[1#8]] none)).mergeOf 0).sending = some (.control ⟨[], true⟩) ∧
      ((run (.trunkTransmitEnd 0) (sending [] [[1#8]] (some (.control ⟨[], true⟩)))).mergeOf 0).sending =
        some (.relayed [1#8]) ∧
      look ((run (.trunkLinkDown 0) (sending [⟨[], false⟩] [] (some (.control ⟨[], true⟩)))).mergeOf 0).counters.vals 4 = 2 ∧
      ((run (.trunkLinkUp 1) up).mergeOf 1).linkUp = true := by decide +kernel

theorem witness_TrunkTransmitter :
    let s := sending [⟨[], true⟩] [] none
    let r := sending [] [[1#8]] none
    ((s.mergeOf 0).linkUp = true ∧ (s.mergeOf 0).sending = none ∧ (s.mergeOf 0).control = ⟨[], true⟩ :: []) ∧
      ((r.mergeOf 0).control = [] ∧ (r.mergeOf 0).relay = [1#8] :: []) ∧
      (((sending [] [] (some (.control ⟨[], true⟩))).mergeOf 0).sending = some (.control ⟨[], true⟩) ∧
        ((sending [] [] (some (.relayed [1#8]))).mergeOf 0).sending = some (.relayed [1#8])) ∧
      (up.agent.intake = [] ∧ up.notice.queue = []) ∧ (State.reset.mergeOf 0).linkUp = false := by decide +kernel

/-- The Notice Queue of 11.5 full, with the route set to lane 0 and owed marks. -/
def backlog (owed : BitVec 6) (ctxOwed : BitVec 8) : State :=
  (up.setNotice { up.notice with
    queue := List.replicate 64 ⟨.context 9 .keyWanted, 1#16, .direct, .active, 0#2, 5, 6, 7, 2304⟩,
    route := some ⟨0, 0x020000000099#48⟩, owed := owed }).setCtx 3 { act with owed := ctxOwed, nextPn := 77 }

/-- R196: the 22 octets of a record of a context and of the device. -/
theorem test_notice_octets :
    (⟨.context 9 .keyWanted, 1#16, .direct, .active, 2#2, 5, 6, 7, 2304⟩ : NoticeRecord).octets =
        bytes [0, 9, 0, 1, 128, 0, 2, 2, 0, 0, 0, 5, 0, 0, 0, 0, 0, 6, 0, 7, 9, 0] ∧
      (⟨.device .zeroized, 0#16, .owed, .undefined, 0#2, 0, 0, 0, 1⟩ : NoticeRecord).octets =
        bytes [255, 255, 0, 0, 1, 1, 0, 0, 0, 0, 0, 0, 0, 0, 0, 0, 0, 0, 0, 0, 0, 1] := by decide +kernel

/-- Departure 1 of 11.5: the place goes to the device POOL_LOW mark. -/
theorem test_departure_1 : let t := run .noticeDeparture (backlog 8#6 32#8)
    (t.notice.queue.length, t.notice.owed, t.notice.sequence, t.notice.queue.getLast?.map (fun n => (n.source, n.delivery))) =
      (64, 0#6, 1#16, some (.device .poolLow, .owed)) := by decide +kernel

/-- Departure 2 of 11.5: the place goes to the SWITCHED mark of context 3, with the values that stand now. -/
theorem test_departure_2 : let t := run .noticeDeparture (backlog 0#6 32#8)
    (t.notice.queue.length, (t.ctx 3).owed, t.notice.queue.getLast?.map (fun n => (n.source, n.delivery, n.nextPn))) =
      (64, 0#8, some (.context 3 .switched, .owed, 77)) := by decide +kernel

theorem low_ctx (d : CtxIx) (h : d.val < (3 : CtxIx).val) : ((backlog 0#6 32#8).ctx d).owed = 0#8 := by
  have : d = 0 ∨ d = 1 ∨ d = 2 := by
    rcases d with ⟨n, hn⟩
    have : n < 3 := h
    rcases n with _ | _ | _ | n
    · exact .inl rfl
    · exact .inr (.inl rfl)
    · exact .inr (.inr rfl)
    · omega
  rcases this with rfl | rfl | rfl <;> decide +kernel

/-- A device mark behind others that are clear, a context mark behind lower contexts and flags without one, and no mark at all. -/
theorem witness_NoticeDeparts :
    let s := backlog 8#6 0#8
    let c := backlog 0#6 32#8
    let r : NoticeRoute := ⟨0, 0x020000000099#48⟩
    let n : NoticeRecord := ⟨.context 9 .keyWanted, 1#16, .direct, .active, 0#2, 5, 6, 7, 2304⟩
    (s.notice.route = some r ∧ s.notice.queue = n :: List.replicate 63 n ∧ (s.mergeOf r.lane).linkUp = true ∧
        placesUsed (s.mergeOf r.lane) < 16) ∧
      (DevFlag.all = [.authFail, .sweepLag] ++ .poolLow :: [.relayDrop, .controlDrop, .zeroized] ∧
        (∀ g ∈ [DevFlag.authFail, .sweepLag], hasFlag s.notice.owed g.bit = false) ∧
        hasFlag s.notice.owed DevFlag.poolLow.bit = true) ∧
      (c.notice.owed = 0#6 ∧ (∀ d : CtxIx, d.val < (3 : CtxIx).val → (c.ctx d).owed = 0#8) ∧
        CtxFlag.all = [.keyWanted, .nextReady] ++ .switched :: [.halted, .unwrapFailed, .oversize, .queueDrop, .saturated] ∧
        (∀ g ∈ [CtxFlag.keyWanted, .nextReady], hasFlag (c.ctx 3).owed g.bit = false) ∧
        hasFlag (c.ctx 3).owed CtxFlag.switched.bit = true) ∧
      (up.ks.mgmtKey = none ∧ (provisioned up).ks.mgmtKey = some 0#256) ∧
      (up.notice.owed = 0#6 ∧ ∀ d, (up.ctx d).owed = 0#8) :=
  ⟨by decide +kernel, by decide +kernel, ⟨rfl, low_ctx, rfl, by decide +kernel, by decide +kernel⟩, ⟨rfl, rfl⟩, rfl, fun d => by
    rw [show up.ctx d = State.reset.ctx d from rfl, reset_ctx]; rfl⟩

/-! ## The Control Agent -/

/-- An IDLE agent with one frame in intake. -/
def waits (code : Nat) (body : Bytes) (auth : Bool) (s : State) : State :=
  s.setAgent { s.agent with intake := [⟨0, ctl code body, auth⟩] }

/-- R153, R154: a command that passes, and one refused NOT_PROVISIONED. -/
theorem test_begin :
    ((run .commandBegin (waits 1 [] false up)).agent.progress.map (fun c => (ctlCode c.frame, c.serial, c.stage)),
      answerOf (run .commandBegin (waits 0x33 [0#8, 0#8] false up))) =
      (some (1, 1, .begun none), some (20, [])) := by decide +kernel

/-- R151, R153: an unauthenticated frame at the head of intake is discarded once the management key is SET. -/
theorem test_begin_purges : let t := run .commandBegin (waits 1 [] false (provisioned up))
    (t.agent.intake, t.agent.progress, look t.agent.counters.vals 3, t.notice.flags) = ([], none, 1, 32#6) := by
  decide +kernel

/-- R153, R157: a command refused leaves the agent IDLE, and the next one begins in the same event; an unauthenticated head is
discarded before an authenticated one begins. -/
theorem test_begin_two :
    ((run .commandBegin (up.setAgent { up.agent with intake := [⟨1, ctl 0x33 [0#8, 0#8], false⟩, ⟨0, ctl 1 [], false⟩] })).agent.progress.map
        (fun c => (ctlCode c.frame, c.serial))) = some (1, 2) ∧
      ((run .commandBegin ((provisioned up).setAgent { up.agent with intake := [⟨0, ctl 1 [], false⟩, ⟨0, ctl 1 [], true⟩] })).agent.progress.map
        (fun c => c.serial)) = some 1 := by decide +kernel

/-- R153, R154, R167: a DEVICE_STATUS_READ holds the agent's part as it begins: BUSY, with an empty intake. -/
theorem test_begin_status : ((run .commandBegin (waits 2 [] true (provisioned up))).agent.progress.map Command.stage) =
    some (.begun (some ([1#8, 0#8] ++ zeros 43 ++ bytes [10, 0, 0, 0, 0, 1, 0x9D, 0x4E]))) := by decide +kernel

/-- One command for each check of R154, at the boundary of its length, and one that passes; intake with one unauthenticated
frame after provisioning, with AUTH_FAIL clear and up. -/
theorem witness_CommandBegins :
    let s := waits 0x42 (zeros 47) true (provisioned up)
    (s.agent.progress = none ∧ s.agent.intake = [⟨0, ctl 0x42 (zeros 47), true⟩] ∧ placesUsed (s.mergeOf 0) < 16 ∧
        s.notice.queue = [] ∧ up.ks.mgmtKey = none) ∧
      isCommandCode 0x13 = false ∧ isCommandCode 0x42 = true ∧
      (let w := waits 1 [] false (provisioned up)
       w.agent.progress = none ∧ w.ks.mgmtKey.isSome = true ∧ w.agent.intake = ⟨0, ctl 1 [], false⟩ :: [] ∧
         hasFlag (w.setNotice { w.notice with flags := 32#6 }).notice.flags DevFlag.authFail.bit = true) ∧
      ({ up.ks with zeroizeHeld := true } : KeyStore).zeroizeHeld = true ∧ up.ks.zeroizeHeld = false ∧
      ctlBodyLen (ctl 0x42 (zeros 46)) ≠ requiredLen s 0x42 ∧ ctlBodyLen (ctl 0x42 (zeros 47)) = requiredLen s 0x42 ∧
      ({ up with mkOnce := true } : State).mkOnce = true := by decide +kernel

/-- R157: the response to IDENTIFY, its addresses, header and length. -/
theorem test_response : let r := responseFrame up (cmd 1 []) .ok []
    (slice r 0 14, slice r 14 8, r.length) =
      (bytes [2, 0, 0, 0, 0, 0x99, 0x0A, 0, 0, 0, 0, 1, 0x9D, 0x4F], bytes [1, 1, 1, 0, 0, 77, 0, 0], 60) := by
  decide +kernel

theorem witness_ResponseLayout : 60 ≤ (cmd 1 []).frame.length ∧ up.ks.mgmtKey = none ∧
    (provisioned up).ks.mgmtKey = some 0#256 := by decide +kernel

/-! ## Device commands -/

/-- The parts of a status record but the Notice Unit's. -/
def gathering (n : Option Bytes) : Stage := .gatherStatus (some []) (some []) (some []) (some []) n

/-- R167, R197: the Notice Unit's part ends the command; it holds the flags, enables, owed marks, master, route and queue. -/
theorem test_snapshot : answerOf (run (.statusSnapshot .noticeUnit) (at_ { cmd 2 [] with stage := gathering none } up)) =
    some (0, bytes [0, 0, 0, 0, 255, 0, 0, 0, 0, 0, 0, 0]) := by decide +kernel

theorem test_status_read :
    ((run .deviceStatusRead (at_ { cmd 2 [] with stage := .begun (some [5#8]) } up)).agent.progress.map Command.stage) =
      some (.gatherStatus none none (some [5#8]) none none) := by decide +kernel

/-- The last part, and one that leaves others missing. -/
theorem witness_IdentityAndStatusReads :
    begunCommand 0x01 (busy 0x01 [] up) = some (cmd 0x01 []) ∧
      (begunCommand 0x02 (busy 0x02 [] up) = some (cmd 0x02 []) ∧ (cmd 0x02 []).stage = .begun none) ∧
      ((at_ { cmd 2 [] with stage := gathering none } up).agent.progress = some { cmd 2 [] with stage := gathering none } ∧
        gathering none = .gatherStatus (some []) (some []) (some []) (some []) none) := by decide +kernel

/-- R73, R74: the three forms of MGMT_KEY_SET. -/
theorem test_mgmtKeySet :
    (run .mgmtKeySet (busy 3 (octetsOf 32 99) up)).ks.mgmtKey = some 99#256 ∧
      (run .mgmtKeySet (busy 3 (zeros 40) (jobs [] none up))).ks.running = some ⟨.mk (zeros 40) 1, 8#256⟩ ∧
      (run .mgmtKeySet (busy 3 (zeros 40) { jobs [] none up with mkOnce := true })).ks.mgmtKey = some 8#256 := by
  decide +kernel

/-- R71, R72: a KEK job is queued and started; an erased entry is answered with what it was. -/
theorem test_keks :
    (run .kekLoad (busy 0x40 (3#8 :: zeros 40) (jobs [] none up))).ks.running = some ⟨.kek 3 (zeros 40) 1, 8#256⟩ ∧
      (run .kekLoad (busy 0x40 (3#8 :: zeros 40) (jobs [] none up))).agent.progress.map Command.stage = some .waitJob ∧
      (run .kekErase (busy 0x41 [1#8] (jobs [] none up))).ks.keks.toList = [none, none, none, none] ∧
      (run .kekErase (busy 0x41 [1#8] up)).agent.progress = none := by decide +kernel

/-- Each state of the key, a job queue with a place left and a full one, and the ends of the KEK range. -/
theorem witness_KeyHolderCommands :
    let c := cmd 3 (zeros 40)
    (begunCommand 3 (busy 3 (zeros 32) up) = some (cmd 3 (zeros 32)) ∧ ctlBodyLen (cmd 3 (zeros 32)).frame = 32 ∧
        up.ks.mgmtKey = none ∧ up.ks.zeroizeHeld = false) ∧
      (begunCommand 3 (busy 3 (zeros 40) (jobs [] none up)) = some c ∧ ctlBodyLen c.frame = 40 ∧
        (jobs [] none up).ks.mgmtKey.isSome = true ∧ up.mkOnce = false ∧ ({ up with mkOnce := true } : State).mkOnce = true) ∧
      ({ up.ks with zeroizeHeld := true } : KeyStore).zeroizeHeld = true ∧
      ((jobs (List.replicate 7 dataJob) none up).ks.jobs.length < 8 ∧ 8 ≤ (jobs (List.replicate 8 dataJob) none up).ks.jobs.length) ∧
      (begunCommand 0x40 (busy 0x40 (3#8 :: zeros 40) (jobs [] none up)) = some (cmd 0x40 (3#8 :: zeros 40)) ∧
        field (cmdBody (cmd 0x40 (3#8 :: zeros 40))) 0 1 = (3 : KekIx).val) ∧
      (begunCommand 0x41 (busy 0x41 [0#8] up) = some (cmd 0x41 [0#8]) ∧ field (cmdBody (cmd 0x41 [0#8])) 0 1 = (0 : KekIx).val) ∧
      (3 < field (cmdBody (cmd 0x40 (4#8 :: zeros 40))) 0 1 ∧ 3 < field (cmdBody (cmd 0x41 [4#8])) 0 1 ∧
        begunCommand 0x40 (busy 0x40 (4#8 :: zeros 40) up) = some (cmd 0x40 (4#8 :: zeros 40)) ∧
        begunCommand 0x41 (busy 0x41 [4#8] up) = some (cmd 0x41 [4#8])) := by
  decide +kernel

/-- R158, R169: the response to DEVICE_ADDRESS_SET carries the new address; an envelope type of 0x05FF is refused. -/
theorem test_settings :
    (run .deviceAddressSet (busy 4 (octetsOf 6 0x0200000000AA) up)).agent.address = 0x0200000000AA#48 ∧
      answerOf (run .deviceAddressSet (busy 4 (octetsOf 6 0x0200000000AA) up)) = some (0, octetsOf 6 0x0200000000AA) ∧
      answerOf (run .envelopeTypeSet (busy 5 (octetsOf 2 0x05FF) up)) = some (19, []) ∧
      (run .envelopeTypeSet (busy 5 (octetsOf 2 0x0600) up)).agent.envelopeType = 0x0600#16 := by decide +kernel

/-- R137, R170: 0 is stored as 2; RESTART_ONLY keeps the settings. R139: the range is stored as given. -/
theorem test_time_base :
    answerOf (run .timeBaseSet (busy 6 (bytes [1, 0, 0, 0, 5]) up)) = some (1, bytes [1, 0, 2, 0, 5]) ∧
      answerOf (run .timeBaseSet (busy 6 (bytes [2, 0, 0, 0, 5]) up)) = some (0, bytes [1, 3, 232, 3, 232]) ∧
      answerOf (run .sweepRangeSet (busy 7 (bytes [3, 255, 0, 0]) up)) = some (0, bytes [3, 255, 0, 0]) ∧
      answerOf (run .sweepRangeSet (busy 7 (bytes [4, 0, 0, 0]) up)) = some (18, []) := by decide +kernel

/-- 7.6: the class limit 100,000 is stored as 99,328. -/
def laneBody : Bytes := bytes [0, 37, 128] ++ octetsOf 4 262144 ++ octetsOf 4 16384 ++ octetsOf 4 100000 ++ octetsOf 4 65536
theorem test_laneSet : let t := run .laneSet (busy 8 laneBody up)
    ((t.campusOf 0).limits.toList, (t.campusOf 0).frameLimit, (answerOf t).map Prod.fst, (t.mergeOf 0).reserved) =
      ([262144, 16384, 99328, 65536], 9600, some 1, false) := by decide +kernel

/-- The clamps of R124 at their ends, and the example of a class limit of 20,000. -/
theorem test_clamps : ([16383, 16384, 20000, 1048576, 1048577].map clampLimit, [1517, 1518, 9600, 9601].map clampFrameLimit) =
    ([16384, 16384, 19456, 1048576, 1048576], [1518, 1518, 9600, 9600]) := by decide

/-- A body for each clause of the settings, at the ends of its range. -/
theorem witness_DeviceSettings :
    begunCommand 4 (busy 4 (zeros 6) up) = some (cmd 4 (zeros 6)) ∧ begunCommand 5 (busy 5 (zeros 2) up) = some (cmd 5 (zeros 2)) ∧
      (field (octetsOf 2 0x05FF) 0 2 ≤ 0x05FF ∧ 0x05FF < field (octetsOf 2 0x0600) 0 2 ∧ field (octetsOf 2 0x8100) 0 2 = 0x8100) ∧
      begunCommand 6 (busy 6 (zeros 5) up) = some (cmd 6 (zeros 5)) ∧
      (3 < field [4#8] 0 1 ∧ field [2#8] 0 1 = 2 ∧ field [3#8] 0 1 = 3 ∧ field [1#8] 0 1 ≤ 1) ∧
      begunCommand 7 (busy 7 (bytes [3, 255, 0, 0]) up) = some (cmd 7 (bytes [3, 255, 0, 0])) ∧
      (field (cmdBody (cmd 7 (bytes [3, 255, 0, 0]))) 0 2 = (1023 : CtxIx).val ∧
        field (cmdBody (cmd 7 (bytes [3, 255, 0, 0]))) 2 2 = (0 : CtxIx).val ∧ 1024 ≤ field (bytes [4, 0, 0, 0]) 0 2) ∧
      begunCommand 8 (busy 8 laneBody up) = some (cmd 8 laneBody) ∧
      (field (cmdBody (cmd 8 laneBody)) 0 1 = (0 : Lane).val ∧ field (bytes [3]) 0 1 = (3 : Lane).val ∧ 4 ≤ field (bytes [4]) 0 1) := by
  decide +kernel

/-- A lane read with CLEAR that waits for one part. -/
def reading (clear : Bool) (m : Option Bytes) : Command :=
  { cmd 9 [0#8, 1#8] with stage := .gatherLane 0 clear none (some []) (some []) m }

/-- R172: the snapshot of Trunk Receive is 71 octets and zeroes its counters. -/
theorem test_lane_counters :
    let t := run (.laneSnapshot .trunkReceive) (at_ (reading true (some [])) (up.setRx 0 (TrunkRx.reset.count .fcsErrors 2)))
    ((answerOf t).map (fun p => (p.1, p.2.length, field p.2 (1 + 18) 6)), (t.rxOf 0).counters.vals.toList.sum,
      ((run .laneCountersRead (busy 9 [0#8, 1#8] up)).agent.progress.map Command.stage)) =
      (some (0, 72, 2), 0, some (.gatherLane 0 true none none none none)) := by decide +kernel

/-- The ends of the lane range; the last part and one before it, with and without CLEAR. -/
theorem witness_LaneCountersAreReadAndCleared :
    (begunCommand 9 (busy 9 [3#8, 1#8] up) = some (cmd 9 [3#8, 1#8]) ∧
        field (cmdBody (cmd 9 [3#8, 1#8])) 0 1 = (3 : Lane).val ∧ field (cmdBody (cmd 9 [3#8, 1#8])) 1 1 ≤ 1) ∧
      ((at_ (reading true none) up).agent.progress = some (reading true none) ∧
        (reading true none).stage = .gatherLane 0 true none (some []) (some []) none ∧
        (reading false (some [])).stage = .gatherLane 0 false none (some []) (some []) (some [])) ∧
      (4 ≤ field [4#8, 0#8] 0 1 ∧ field [3#8, 2#8] 0 1 < 4 ∧ 1 < field [3#8, 2#8] 1 1) ∧
      ((up.mergeOf 0).linkUp = true ∧ (State.reset.mergeOf 0).linkUp = false ∧ up.agent.intake = [] ∧
        (reading true none).lane = 0) := by decide +kernel

/-- A lane read with CLEAR that waits for the Return Merge's part. -/
def readingLast : Command := { cmd 9 [0#8, 1#8] with stage := .gatherLane 0 true (some []) (some []) (some []) none }

/-- R164, R172: the Return Merge's counters are zeroed with its part taken last; with the link DOWN the response counts itself. -/
theorem test_merge_cleared :
    ((run (.laneSnapshot .returnMerge) (at_ readingLast (up.setMerge 0 ((up.mergeOf 0).count .relayErrors 5)))).mergeOf 0).counters =
        CounterSet.zero 6 ∧
      look ((run (.laneSnapshot .returnMerge) (at_ readingLast State.reset)).mergeOf 0).counters.vals 4 = 1 ∧
      answerOf (run .laneCountersRead (busy 9 [4#8, 0#8] up)) = some (18, []) ∧
      answerOf (run .laneCountersRead (busy 9 [3#8, 2#8] up)) = some (19, []) := by decide +kernel

/-- R39, R175, R176. -/
theorem test_notice_commands :
    (run .noticeRouteSet (busy 0x10 (bytes [1, 2, 0, 0, 0, 0, 9]) up)).notice.route = some ⟨1, 0x020000000009#48⟩ ∧
      ((run .noticeEnableSet (busy 0x11 [1#8, 63#8] up)).notice.master, (run .noticeEnableSet (busy 0x11 [1#8, 63#8] up)).notice.enables) =
        (true, 63#6) ∧
      answerOf (run .attentionClear (busy 0x12 (bytes [0, 7, 0xC0]) (up.setCtx 7 { act with flags := 0x90#8 }))) =
        some (0, bytes [0, 7, 0, 41, 0x80]) ∧
      ((run .attentionClear (busy 0x12 (bytes [0, 7, 0xC0]) (up.setCtx 7 { act with flags := 0x90#8 }))).ctx 7).flags = 0x10#8 := by
  decide +kernel

/-- The ends of each range. -/
theorem witness_NoticeCommands :
    begunCommand 0x10 (busy 0x10 (zeros 7) up) = some (cmd 0x10 (zeros 7)) ∧
      (field [255#8] 0 1 = 255 ∧ field [4#8] 0 1 ≠ 255 ∧ 4 ≤ field [4#8] 0 1 ∧ field [3#8] 0 1 = (3 : Lane).val) ∧
      begunCommand 0x11 (busy 0x11 [1#8, 63#8] up) = some (cmd 0x11 [1#8, 63#8]) ∧
      (field (cmdBody (cmd 0x11 [1#8, 63#8])) 0 1 ≤ 1 ∧ field (cmdBody (cmd 0x11 [1#8, 63#8])) 1 1 ≤ 63 ∧ 1 < field [2#8] 0 1 ∧
        63 < field [64#8] 0 1) ∧
      begunCommand 0x12 (busy 0x12 (bytes [3, 255, 63]) up) = some (cmd 0x12 (bytes [3, 255, 63])) ∧
      (field (cmdBody (cmd 0x12 (bytes [3, 255, 63]))) 0 2 = (1023 : CtxIx).val ∧ field (bytes [255, 255]) 0 2 = 65535 ∧
        field (cmdBody (cmd 0x12 (bytes [3, 255, 63]))) 2 1 ≤ 63 ∧ 63 < field [64#8] 0 1 ∧
        1024 ≤ field (bytes [4, 0]) 0 2 ∧ field (bytes [4, 0]) 0 2 ≠ 65535) ∧
      (∀ x ∈ (busy 0x12 (bytes [255, 255, 63]) up).agent.intake, x.auth = true) := by decide +kernel

/-- R176, R186: the device form clears the flags named, and keeps the others. -/
theorem test_device_flags_cleared :
    let t := run .attentionClear (busy 0x12 (bytes [255, 255, 9]) (up.setNotice { up.notice with flags := 57#6 }))
    (t.notice.flags, answerOf t) = (48#6, some (0, bytes [255, 255, 0, 0, 9])) := by decide +kernel

/-! ## Selector commands -/

/-- Entry 511: lanes 0 and 2, VLAN 4,094, priority 7, prefix 49, EtherType 0x0800, PROTECT 1,023. -/
def selBody : Bytes := bytes [1, 255, 1, 5, 15, 254, 7, 1, 2, 3, 4, 5, 6, 49, 1, 8, 0, 2, 3, 255]
def selEntry : SelEntry :=
  { valid := true, lanes := 5#4, tagMatch := .vlan 4094#12, priority := some 7#3, address := 0x010203040506#48, prefixLen := 48,
    typeMatch := true, etherType := 0x0800#16, action := .protect 1023, hits := CounterSet.zero 1 }

/-- R9, R14, R177: every field, and the clamped prefix length. -/
theorem test_selectorWrite : let t := run .selectorWrite (busy 0x20 selBody up)
    (t.entry 511, answerOf t) =
      (selEntry, some (1, bytes [1, 255, 1, 5, 15, 254, 7, 1, 2, 3, 4, 5, 6, 48, 1, 8, 0, 2, 3, 255])) := by decide +kernel

/-- R177: a lanes value of 0 and a tag match of 4,095 are refused. -/
theorem test_selectorWrite_refused :
    ((answerOf (run .selectorWrite (busy 0x20 (selBody.set 3 0#8) up))), (answerOf (run .selectorWrite (busy 0x20 (selBody.set 5 255#8) up))),
      (answerOf (run .selectorWrite (busy 0x20 (selBody.set 18 4#8) up)))) = (some (19, []), some (19, []), some (18, [])) := by
  decide +kernel

/-- R15, R16, R178. -/
theorem test_selector_invalidate_and_read :
    let s := up.setEntry 511 { selEntry with hits := selEntry.hits.bump 0 9 }
    ((run .selectorInvalidate (busy 0x21 [1#8, 255#8] s)).entry 511 = { selEntry with valid := false, hits := selEntry.hits.bump 0 9 } ∧
      (answerOf (run .selectorRead (busy 0x22 (bytes [1, 255, 1]) s))).map (fun p => (p.1, p.2.length, field p.2 20 6)) =
        some (0, 27, 9) ∧
      look ((run .selectorRead (busy 0x22 (bytes [1, 255, 1]) s)).entry 511).hits.vals 0 = 0) := by decide +kernel

theorem witness_SelectorWriteAndRead :
    let b := cmdBody (cmd 0x20 selBody)
    let e := selEntry
    (begunCommand 0x20 (busy 0x20 selBody up) = some (cmd 0x20 selBody) ∧ field b 0 2 = (511 : SelIx).val ∧
        (field b 2 1 = if e.valid then 1 else 0) ∧ field b 3 1 = e.lanes.toNat ∧ e.lanes ≠ 0#4) ∧
      (e.tagMatch = .vlan 4094#12 ∧ 1 ≤ (4094#12).toNat ∧ (4094#12).toNat ≤ 4094 ∧ field b 4 2 = (4094#12).toNat) ∧
      (e.priority = some 7#3 ∧ field b 6 1 = (7#3).toNat ∧ field b 7 6 = e.address.toNat ∧
        e.prefixLen = min 48 (field b 13 1) ∧ (field b 14 1 = if e.typeMatch then 1 else 0) ∧ field b 15 2 = e.etherType.toNat) ∧
      (e.action = .protect 1023 ∧ field b 17 1 = 2 ∧ field b 18 2 = (1023 : CtxIx).val ∧ e.hits = CounterSet.zero 1) ∧
      (begunCommand 0x22 (busy 0x22 (bytes [0, 0, 1]) up) = some (cmd 0x22 (bytes [0, 0, 1])) ∧
        field (cmdBody (cmd 0x22 (bytes [0, 0, 1]))) 0 2 = (0 : SelIx).val ∧
        field (cmdBody (cmd 0x22 (bytes [0, 0, 1]))) 2 1 = 1 ∧ field (bytes [0, 0, 0]) 2 1 ≤ 1 ∧
        1 < field (bytes [0, 0, 2]) 2 1) ∧
      (let low := cmdBody (cmd 0x20 (bytes [2, 0, 2, 0, 15, 255, 8, 1, 2, 3, 4, 5, 6, 49, 2, 8, 0, 3, 0, 0]))
       begunCommand 0x20 (busy 0x20 (bytes [2, 0, 2, 0, 15, 255, 8, 1, 2, 3, 4, 5, 6, 49, 2, 8, 0, 3, 0, 0]) up) =
           some (cmd 0x20 (bytes [2, 0, 2, 0, 15, 255, 8, 1, 2, 3, 4, 5, 6, 49, 2, 8, 0, 3, 0, 0])) ∧
         511 < field low 0 2 ∧ 1 < field low 2 1 ∧ field low 3 1 = 0 ∧ (4094 < field low 4 2 ∧ field low 4 2 ≠ 65535) ∧
         (7 < field low 6 1 ∧ field low 6 1 ≠ 255) ∧ 1 < field low 14 1 ∧ 2 < field low 17 1 ∧
         (15 < field [16#8] 0 1 ∧ 1023 < field (bytes [4, 0]) 0 2 ∧ 3 < field (bytes [0, 4]) 0 2)) ∧
      (¬(511 < field b 0 2 ∨ (field (cmdBody (cmd 0x20 (selBody.set 3 0#8))) 17 1 = 2 ∧
        1023 < field (cmdBody (cmd 0x20 (selBody.set 3 0#8))) 18 2))) ∧
      (begunCommand 0x21 (busy 0x21 [2#8, 0#8] up) = some (cmd 0x21 [2#8, 0#8]) ∧
        511 < field (cmdBody (cmd 0x21 [2#8, 0#8])) 0 2 ∧
        begunCommand 0x22 (busy 0x22 (bytes [2, 0, 2]) up) = some (cmd 0x22 (bytes [2, 0, 2])) ∧
        511 < field (cmdBody (cmd 0x22 (bytes [2, 0, 2]))) 0 2) := by decide +kernel

theorem witness_SelectorInvalidateKeepsTheRest :
    let s := up.setEntry 511 selEntry
    (begunCommand 0x21 (busy 0x21 [1#8, 255#8] s) = some (cmd 0x21 [1#8, 255#8]) ∧
        field (cmdBody (cmd 0x21 [1#8, 255#8])) 0 2 = (511 : SelIx).val ∧ (s.entry 511).valid = true ∧ (up.entry 511).valid = false) ∧
      (begunCommand 0x22 (busy 0x22 (bytes [1, 255, 0]) s) = some (cmd 0x22 (bytes [1, 255, 0])) ∧
        field (cmdBody (cmd 0x22 (bytes [1, 255, 0]))) 2 1 = 0) ∧
      (field (cmdBody (cmd 0x20 selBody)) 2 1 = 1 ∧
        ((run .selectorWrite (busy 0x20 selBody up)).entry 511).lanes ≠ ((busy 0x20 selBody up).entry 511).lanes) := by
  decide +kernel

/-! ## Context commands -/

/-- The CONTEXT_DEFINE body of 10.8. -/
def define108 : Bytes :=
  bytes [0, 50, 0, 0, 0, 9, 2, 4, 3, 0] ++ octetsOf 4 0 ++ octetsOf 4 20 ++ octetsOf 4 16 ++ octetsOf 2 0 ++ octetsOf 2 7200 ++
    [0#8, 255#8]

/-- The state of 10.8: context 50 is UNDEFINED on generation 2. -/
def gen2 : State := up.setCtx 50 { Ctx.reset with generation := 2#16 }

/-- Command 1 of 10.8: OK_CLAMPED, with the thresholds as stored; command 5: CONTEXT_BUSY. -/
theorem test_define_108 :
    answerOf (run .contextDefine (busy 0x30 define108 gen2)) =
        some (1, bytes [0, 50, 0, 2, 1] ++ octetsOf 4 1 ++ octetsOf 4 16 ++ octetsOf 4 16 ++ octetsOf 2 1 ++ octetsOf 2 7200) ∧
      ((run .contextDefine (busy 0x30 define108 gen2)).ctx 50).options = ⟨false, false, true⟩ ∧
      answerOf (run .contextDefine (busy 0x30 define108 (gen2.setCtx 50 act))) = some (23, []) := by decide +kernel

/-- The ends of each range, in both states. -/
theorem witness_ContextDefineWritesTheRecord :
    let b := bytes [3, 255, 0, 0, 0, 9, 3, 7, 3, 15] ++ zeros 16 ++ [3#8, 255#8]
    (begunCommand 0x30 (busy 0x30 b up) = some (cmd 0x30 b) ∧ cmdBody (cmd 0x30 b) = b ∧ field b 0 2 = (1023 : CtxIx).val ∧
        field b 6 1 ≤ 3 ∧ field b 7 1 ≤ 7 ∧ field b 8 1 ≤ 3 ∧ field b 9 1 ≤ 15 ∧ field b 26 1 ≤ 3) ∧
      ((up.ctx 1023).state = .undefined ∧ act.state ≠ .undefined) ∧
      (let x := bytes [4, 0, 0, 0, 0, 9, 4, 8, 4, 16] ++ zeros 16 ++ [4#8, 255#8]
       begunCommand 0x30 (busy 0x30 x up) = some (cmd 0x30 x) ∧ cmdBody (cmd 0x30 x) = x ∧ 1023 < field x 0 2 ∧
         3 < field x 6 1 ∧ 7 < field x 7 1 ∧ 3 < field x 8 1 ∧ 15 < field x 9 1 ∧ 3 < field x 26 1) := by decide +kernel

/-- R20, R49, R165, R177 to R184: in every command that names an index, the first value past its range is BAD_INDEX (18), also
where another field is out of its range. -/
theorem test_bad_index :
    let k := jobs [] none up
    ([answerOf (run .kekLoad (busy 0x40 (4#8 :: zeros 40) k)), answerOf (run .kekErase (busy 0x41 [4#8] k)),
        answerOf (run .selectorWrite (busy 0x20 (selBody.set 0 2#8) k)), answerOf (run .selectorInvalidate (busy 0x21 [2#8, 0#8] k)),
        answerOf (run .selectorRead (busy 0x22 (bytes [2, 0, 2]) k))] = List.replicate 5 (some (18, []))) ∧
      ([answerOf (run .contextDefine (busy 0x30 (bytes [4, 0, 0, 0, 0, 9, 4] ++ zeros 21) k)),
        answerOf (run .contextModify (busy 0x31 (bytes [4, 0, 0, 0, 0, 9, 4] ++ zeros 18) k)),
        answerOf (run .contextClear (busy 0x32 [4#8, 0#8] k)), answerOf (run .contextRead (busy 0x33 [4#8, 0#8] k)),
        answerOf (run .contextFlag (busy 0x34 (bytes [4, 0, 11, 4]) k))] = List.replicate 5 (some (18, []))) ∧
      ([answerOf (run .contextCountersRead (busy 0x35 [4#8, 0#8, 2#8] k)),
        answerOf (run .keyLoad (busy 0x42 (bytes [4, 0] ++ zeros 45) k)), answerOf (run .nextDiscard (busy 0x43 [4#8, 0#8] k)),
        answerOf (run .switchRequest (busy 0x44 [4#8, 0#8] k))] = List.replicate 4 (some (18, []))) := by decide +kernel

/-- R165, R179, R184: a value past its range is BAD_VALUE (19), before the state check. -/
theorem test_bad_value :
    [answerOf (run .contextDefine (busy 0x30 (bytes [0, 7, 0, 0, 0, 9, 0, 8] ++ zeros 20) (up.setCtx 7 act))),
      answerOf (run .contextDefine (busy 0x30 (bytes [0, 7] ++ zeros 24 ++ [4#8, 0#8]) (up.setCtx 7 act))),
      answerOf (run .contextModify (busy 0x31 (bytes [0, 7, 0, 0, 0, 9, 0, 4] ++ zeros 17) up)),
      answerOf (run .contextModify (busy 0x31 (bytes [0, 7, 0, 0, 0, 9, 0, 0, 16] ++ zeros 16) up)),
      answerOf (run .groupSwitch (busy 0x45 [15#8, 2#8] up))] = List.replicate 5 (some (19, [])) := by decide +kernel

/-- A CONTEXT_MODIFY body for context 7 with condition code 1 and block thresholds. -/
def modify (soft hard : Nat) : Bytes :=
  bytes [0, 7, 0, 0, 0, 5, 0, 1, 0] ++ octetsOf 4 4294967295 ++ octetsOf 4 soft ++ octetsOf 4 hard ++ octetsOf 2 65535 ++
    octetsOf 2 65535

/-- Context 7 of case 8 of 3.9. -/
def case8 : Ctx := { case4 7001 679000 with softReached := true }

/-- Case 8: lowering the hard limit to 10 units halts the key; raising both limits keeps it. -/
theorem test_case8 :
    (let t := run .contextModify (busy 0x31 (modify 10 10) (with7 case8 0 up))
     ((t.ctx 7).state, (t.ctx 7).flags, (t.ctx 7).blocks, (t.slot 133).state, (answerOf t).map (fun p => field p.2 4 1)) =
       (.halted, 144#8, 679000, .scrubbing, some 3)) ∧
      (let t := run .contextModify (busy 0x31 (modify 12 20) (with7 case8 0 up))
       ((t.ctx 7).state, (t.ctx 7).softReached, (t.ctx 7).thresholds.blockHard) = (.active, true, 20)) := by decide +kernel

/-- Every state, and in ACTIVE: a crossing that rolls, a hard limit with and without a READY next slot, and neither. -/
theorem witness_ContextModifyReevaluates :
    let r := case8
    let a := { case8 with softReached := false, options := ⟨false, false, true⟩, next := some (134, NextCond.ready) }
    (begunCommand 0x31 (busy 0x31 (modify 10 10) (with7 r 0 up)) = some (cmd 0x31 (modify 10 10)) ∧
        cmdBody (cmd 0x31 (modify 10 10)) = modify 10 10 ∧ field (modify 10 10) 0 2 = (7 : CtxIx).val ∧
        field (modify 10 10) 6 1 ≤ 3 ∧ field (modify 10 10) 7 1 ≤ 3 ∧ field (modify 10 10) 8 1 ≤ 15) ∧
      ((up.ctx 7).state = .undefined ∧ (pending7 .keyless false).state = .keyless ∧ (pending7 .halted false).state = .halted ∧
        r.state = .active) ∧
      (a.softReached = false ∧ 10 * 65536 ≤ a.blocks ∧ a.options.autoRoll = true ∧ nextReady a = true ∧
        a.next = some (134, .ready)) ∧
      (10 * 65536 < r.blocks ∧ nextReady r = false) ∧ ¬20 * 65536 < r.blocks ∧
      ((case4 7001 679000).softReached = false ∧ (case4 7001 679000).next = none ∧
        10 * 65536 ≤ (case4 7001 679000).blocks ∧ ¬11 * 65536 < (case4 7001 679000).blocks) ∧
      (let s := with7 a 0 up
       (s.slot 133).owner = some (7, a.generation) ∧ (s.slot 133).state = .current ∧ a.current = some 133 ∧
         (s.slot 134).owner = some (7, a.generation) ∧ (s.slot 134).state = .ready) ∧
      (up.agent.intake = [] ∧ up.notice.route = none ∧ (noticing 1 up).notice.queue ≠ []) ∧
      (let x := bytes [4, 0, 0, 0, 0, 9, 4, 4, 16] ++ zeros 16
       begunCommand 0x31 (busy 0x31 x up) = some (cmd 0x31 x) ∧ cmdBody (cmd 0x31 x) = x ∧ 1023 < field x 0 2 ∧
         3 < field x 6 1 ∧ 3 < field x 7 1 ∧ 15 < field x 8 1) := by decide +kernel

/-- R52, R62: a crossing at a modify without a next slot raises KEY_WANTED and keeps the key; the response carries the record. -/
theorem test_modify_soft : let t := run .contextModify (busy 0x31 (modify 10 11) (with7 (case4 7001 679000) 0 up))
    ((t.ctx 7).state, (t.ctx 7).flags, (t.ctx 7).softReached) = (.active, 128#8, true) ∧
      (answerOf t).map (fun p => (p.1, p.2.take 10)) = some (0, bytes [0, 7, 0, 41, 2, 0, 0, 0, 27, 89]) := by decide +kernel

/-- R32, R69: the current slot with no frame in flight is scrubbed, and the READY next slot too. -/
theorem test_contextClear :
    let t := run .contextClear (busy 0x32 [0#8, 7#8] (with7 { act with next := some (134, .ready), flags := 255#8 } 0 up))
    ((t.ctx 7).state, (t.ctx 7).generation, (t.ctx 7).flags) = (.undefined, 42#16, 0#8) ∧
      ((t.slot 133).state, (t.slot 134).state) = (.scrubbing, .scrubbing) ∧
      answerOf t = some (0, bytes [0, 7, 0, 42, 0]) := by decide +kernel

/-- Both states of the context; its CURRENT slot, a READY and an UNWRAPPING next slot. -/
theorem witness_ContextClearReleasesItsSlots :
    let r := { act with next := some (134, NextCond.ready) }
    let s := with7 r 0 up
    (begunCommand 0x32 (busy 0x32 [0#8, 7#8] s) = some (cmd 0x32 [0#8, 7#8]) ∧
        field (cmdBody (cmd 0x32 [0#8, 7#8])) 0 2 = (7 : CtxIx).val ∧ (up.ctx 7).state = .undefined ∧ r.state ≠ .undefined) ∧
      (r.current = some 133 ∧ r.next.map Prod.fst ≠ some 133 ∧ (s.slot 133).owner = some (7, r.generation) ∧
        (s.slot 133).state = .current) ∧
      (r.next = some (134, .ready) ∧ r.current ≠ some 134 ∧ (s.slot 134).owner = some (7, r.generation) ∧
        (s.slot 134).state = .ready) ∧
      (((unwrapping 1 up).slot 133).state = .unwrapping ∧ (pending7 .halted false).next = some (133, .pending) ∧
        (pending7 .halted false).current ≠ some 133) ∧
      (begunCommand 0x32 (busy 0x32 [4#8, 0#8] up) = some (cmd 0x32 [4#8, 0#8]) ∧
        1023 < field (cmdBody (cmd 0x32 [4#8, 0#8])) 0 2) := by decide +kernel

/-- R180, R181. -/
theorem test_context_reads :
    (answerOf (run .contextRead (busy 0x33 [0#8, 7#8] (up.setCtx 7 act)))).map (fun p => (p.1, p.2.length, field p.2 2 1, field p.2 32 2)) =
        some (0, 52, 2, 65535) ∧
      (answerOf (run .contextCountersRead (busy 0x35 [0#8, 7#8, 1#8] (up.setCtx 7 (act.count .flushDrops 3))))).map
        (fun p => (p.1, p.2.length, field p.2 35 6)) = some (0, 42, 3) ∧
      ((run .contextCountersRead (busy 0x35 [0#8, 7#8, 1#8] (up.setCtx 7 (act.count .flushDrops 3)))).ctx 7).counters =
        CounterSet.zero 6 := by decide +kernel

/-- R181: TOGGLE of AUTO_ROLL, SET of the KEY_WANTED enable, and flag number 11. -/
theorem test_contextFlag :
    let s := up.setCtx 7 act
    (answerOf (run .contextFlag (busy 0x34 (bytes [0, 7, 2, 2]) s)), ((run .contextFlag (busy 0x34 (bytes [0, 7, 2, 2]) s)).ctx 7).options) =
        (some (0, bytes [0, 7, 0, 41, 2, 0, 1]), ⟨false, false, true⟩) ∧
      ((run .contextFlag (busy 0x34 (bytes [0, 7, 3, 0]) s)).ctx 7).enables = 128#8 ∧
      answerOf (run .contextFlag (busy 0x34 (bytes [0, 7, 11, 0]) s)) = some (19, []) := by decide +kernel

theorem witness_ContextReadsAndFlag :
    (begunCommand 0x33 (busy 0x33 [3#8, 255#8] up) = some (cmd 0x33 [3#8, 255#8]) ∧
        field (cmdBody (cmd 0x33 [3#8, 255#8])) 0 2 = (1023 : CtxIx).val) ∧
      (begunCommand 0x35 (busy 0x35 [0#8, 0#8, 1#8] up) = some (cmd 0x35 [0#8, 0#8, 1#8]) ∧
        field (cmdBody (cmd 0x35 [0#8, 0#8, 1#8])) 2 1 ≤ 1 ∧ 1 < field [0#8, 0#8, 2#8] 2 1) ∧
      (begunCommand 0x34 (busy 0x34 (bytes [0, 7, 10, 3]) up) = some (cmd 0x34 (bytes [0, 7, 10, 3])) ∧
        field (cmdBody (cmd 0x34 (bytes [0, 7, 10, 3]))) 0 2 = (7 : CtxIx).val ∧
        field (cmdBody (cmd 0x34 (bytes [0, 7, 10, 3]))) 2 1 ≤ 10 ∧ field (cmdBody (cmd 0x34 (bytes [0, 7, 10, 3]))) 3 1 ≤ 3 ∧
        10 < field [11#8] 0 1 ∧ 3 < field [4#8] 0 1 ∧ (up.ctx 7).state = .undefined ∧ act.state ≠ .undefined) ∧
      (begunCommand 0x33 (busy 0x33 [4#8, 0#8] up) = some (cmd 0x33 [4#8, 0#8]) ∧
        begunCommand 0x34 (busy 0x34 (bytes [4, 0, 11, 4]) up) = some (cmd 0x34 (bytes [4, 0, 11, 4])) ∧
        begunCommand 0x35 (busy 0x35 [4#8, 0#8, 2#8] up) = some (cmd 0x35 [4#8, 0#8, 2#8]) ∧
        1023 < field (cmdBody (cmd 0x33 [4#8, 0#8])) 0 2 ∧ 1023 < field (cmdBody (cmd 0x34 (bytes [4, 0, 11, 4]))) 0 2 ∧
        1023 < field (cmdBody (cmd 0x35 [4#8, 0#8, 2#8])) 0 2) := by
  decide +kernel

/-! ## Key commands -/

/-- A KEY_LOAD body for context 50. -/
def loadBody (kek : Nat) : Bytes := bytes [0, 50, kek, 1, 2, 3, 4] ++ zeros 40

/-- Context 50 KEYLESS on generation 2, KEK entry 1 VALID, and a job running. -/
def loading : State :=
  jobs [] (some ⟨dataJob, 9#256⟩) (up.setCtx 50 { Ctx.reset with state := .keyless, generation := 2#16 })

/-- Commands 2 to 4 of 10.8: a KEK index of 5 is refused; the lowest FREE slot is reserved and its job queued; a second load
finds the next slot present. -/
theorem test_key_load :
    (answerOf (run .keyLoad (busy 0x42 (loadBody 5) (at_ (cmd 0x42 (loadBody 5)) (loading))))).map Prod.fst = some 18 ∧
      (let t := run .keyLoad (busy 0x42 (loadBody 1) loading)
       ((answerOf t).map (fun p => p), (t.ctx 50).next, t.ks.freeSlots, t.ks.jobs.length, (t.slot 0).state, (t.slot 0).salt) =
         (some (3, bytes [0, 0, 0, 2]), some (0, .pending), 2303, 1, .unwrapping, 0x01020304#32)) := by decide +kernel

theorem test_key_load_refused :
    answerOf (run .keyLoad (busy 0x42 (loadBody 1) (loading.setCtx 50 (pending7 .keyless false)))) = some (25, []) ∧
      answerOf (run .keyLoad (busy 0x42 (loadBody 1) (jobs (List.replicate 8 dataJob) none loading))) = some (27, []) ∧
      answerOf (run .keyLoad (busy 0x42 (loadBody 1) (up.setKs { loading.ks with zeroizeHeld := true }))) = some (22, []) := by
  decide +kernel

/-- A state with no FREE slot. -/
def noFree : State := up.setKs { up.ks with slots := Vector.replicate 2304 ⟨.current, none, 0#32, 0, 0, 0#256⟩ }

/-- Each check of R66, and the lowest FREE slot behind one that is not FREE. -/
theorem witness_KeyLoadReservesTheLowestFreeSlot :
    (begunCommand 0x42 (busy 0x42 (loadBody 3) loading) = some (cmd 0x42 (loadBody 3)) ∧
        field (cmdBody (cmd 0x42 (loadBody 3))) 0 2 = (50 : CtxIx).val ∧
        field (cmdBody (cmd 0x42 (loadBody 3))) 2 1 = (3 : KekIx).val) ∧
      ({ up.ks with zeroizeHeld := true } : KeyStore).zeroizeHeld = true ∧
      (loading.ks.zeroizeHeld = false ∧ (up.ctx 50).state = .undefined ∧ (loading.ctx 50).state ≠ .undefined ∧
        (pending7 .keyless false).next ≠ none ∧ (loading.ctx 50).next = none) ∧
      (8 ≤ (jobs (List.replicate 8 dataJob) none up).ks.jobs.length ∧ (jobs (List.replicate 7 dataJob) none up).ks.jobs.length < 8) ∧
      (∀ k, (noFree.slot k).state ≠ .free) ∧
      (let s := loading.setSlot 0 ⟨.current, none, 0#32, 0, 0, 0#256⟩
       (s.slot 1).state = .free ∧ ∀ j : SlotIx, j.val < (1 : SlotIx).val → (s.slot j).state ≠ .free) ∧
      ({ up.ks with freeSlots := 16 } : KeyStore).freeSlots ≤ 16 ∧
      (begunCommand 0x42 (busy 0x42 (loadBody 4) loading) = some (cmd 0x42 (loadBody 4)) ∧
        3 < field (cmdBody (cmd 0x42 (loadBody 4))) 2 1 ∧ 1023 < field (bytes [4, 0]) 0 2) :=
  ⟨by decide +kernel, rfl, by decide +kernel, by decide, fun k => by
    have : noFree.slot k = ⟨.current, none, 0#32, 0, 0, 0#256⟩ := by simp [noFree, State.slot, State.setKs]
    rw [this]; decide, ⟨by decide +kernel, fun j h => by
      have : j = 0 := by apply Fin.ext; have : (1 : SlotIx).val = 1 := rfl; omega
      subst this; decide +kernel⟩, by decide, by decide +kernel⟩

/-- Command 6 of 10.8: no READY next slot leaves the switch pending; with one the switch is made. R99: a READY next slot is
scrubbed. -/
theorem test_switch_and_discard :
    (answerOf (run .switchRequest (busy 0x44 [0#8, 50#8]
        (gen2.setCtx 50 { Ctx.reset with state := .keyless, generation := 2#16, next := some (5, .pending) }))) =
      some (2, bytes [0, 50, 0, 2, 1, 0, 0, 0, 0, 0, 2, 1])) ∧
      (let t := run .switchRequest (busy 0x44 [0#8, 7#8] (with7 { act with next := some (134, .ready) } 2 up))
       ((t.ctx 7).current, (t.slot 133).state, (t.slot 134).state, answerOf t) =
         (some 134, .draining, .current, some (0, bytes [0, 7, 0, 41, 2, 1, 0, 0, 0, 1, 0, 0]))) ∧
      (let t := run .nextDiscard (busy 0x43 [0#8, 7#8] (with7 { act with next := some (134, .ready) } 2 up))
       ((t.ctx 7).next, (t.slot 134).state, (t.ctx 7).current, answerOf t) =
         (none, .scrubbing, some 133, some (0, bytes [2, 0]))) := by decide +kernel

/-- Both commands on every state of the context and of its next slot. -/
theorem witness_NextDiscardAndSwitchRequest :
    let r := { act with next := some (134, NextCond.ready) }
    let s := with7 r 1 up
    (begunCommand 0x43 (busy 0x43 [0#8, 7#8] s) = some (cmd 0x43 [0#8, 7#8]) ∧ begunCommand 0x44 (busy 0x44 [0#8, 7#8] s) =
        some (cmd 0x44 [0#8, 7#8]) ∧ field (cmdBody (cmd 0x43 [0#8, 7#8])) 0 2 = (7 : CtxIx).val ∧
        field (cmdBody (cmd 0x44 [0#8, 7#8])) 0 2 = (7 : CtxIx).val) ∧
      ((up.ctx 7).state = .undefined ∧ r.state ≠ .undefined ∧ nextReady act = false ∧ r.next = some (134, .ready)) ∧
      ((s.slot 134).owner = some (7, r.generation) ∧ (s.slot 134).state = .ready ∧ r.current ≠ some 134 ∧
        r.current = some 133 ∧ (s.slot 133).owner = some (7, r.generation) ∧ (s.slot 133).state = .current) ∧
      (((unwrapping 1 up).slot 133).state = .unwrapping ∧ ((unwrapping 1 up).slot 133).owner = some (7, 41#16) ∧
        (pending7 .active false).next = some (133, .pending)) ∧
      (up.agent.intake = [] ∧ up.notice.route = none ∧ (noticing 1 up).notice.queue ≠ []) ∧
      (begunCommand 0x43 (busy 0x43 [4#8, 0#8] up) = some (cmd 0x43 [4#8, 0#8]) ∧
        begunCommand 0x44 (busy 0x44 [4#8, 0#8] up) = some (cmd 0x44 [4#8, 0#8]) ∧
        1023 < field (cmdBody (cmd 0x43 [4#8, 0#8])) 0 2 ∧ 1023 < field (cmdBody (cmd 0x44 [4#8, 0#8])) 0 2) := by decide +kernel

/-- R187: the rise of SWITCHED at a SWITCH_REQUEST gives its record, and its owed mark where 64 records wait. -/
theorem test_switch_rise :
    let r := { act with next := some (134, NextCond.ready), enables := 32#8, phase := 3#2 }
    (run .switchRequest (busy 0x44 [0#8, 7#8] (noticing 1 (with7 r 2 up)))).notice.queue.drop 1 =
        [⟨.context 7 .switched, 41#16, .direct, .active, 0#2, 1, 0, 0, 2304⟩] ∧
      ((run .switchRequest (busy 0x44 [0#8, 7#8] (noticing 64 (with7 r 2 up)))).ctx 7).owed = 32#8 := by decide +kernel

/-- The group of 5.7, at contexts 0 to 4. -/
def group57 : State :=
  let g : Ctx := { Ctx.reset with group := 3, generation := 41#16 }
  ((((up.setCtx 0 { g with state := .active, current := some 133, next := some (134, .ready), nextPn := 9 }).setCtx 1
    { g with state := .active, current := some 10, next := some (11, .pending), nextPn := 1 }).setCtx 2
    { g with state := .active, current := some 12, nextPn := 1 }).setCtx 3
    { g with state := .halted, next := some (13, .pending) }).setCtx 4 g

/-- A GROUP_SWITCH of group 3 at its requests still to be taken. -/
def grouping (hold : Bool) (left : List CtxIx) (sw pe mi : Nat) : Command :=
  { cmd 0x45 [3#8, 0#8] with stage := .groupSwitch 3 hold left sw pe mi }

/-- 5.7: ONLY_READY is answered 1, 0, 3 and HOLD 1, 3, 0, here at the last request. -/
theorem test_group_57 :
    answerOf (run (.groupSwitchRequest 0) (at_ (grouping false [0] 0 0 3) group57)) = some (0, bytes [0, 1, 0, 0, 0, 3]) ∧
      answerOf (run (.groupSwitchRequest 3) (at_ (grouping true [3] 1 2 0) group57)) = some (0, bytes [0, 1, 0, 3, 0, 0]) ∧
      ((run (.groupSwitchRequest 1) (at_ (grouping true [1, 2] 0 0 0) group57)).ctx 1).switchPending = true ∧
      (run (.groupSwitchRequest 1) (at_ (grouping false [1, 2] 0 0 0) group57)).agent.progress = some (grouping false [2] 0 0 1) := by
  decide +kernel

/-- 5.7: the requests go to the contexts of the group that are defined: to contexts 0 to 3, and not to the UNDEFINED context 4. -/
theorem test_group_members :
    (∀ x : CtxIx, x ∈ groupMembers 3 group57 ↔ inGroup 3 (group57.ctx x) = true) ∧
      [0, 1, 2, 3, 4].map (fun x : CtxIx => inGroup 3 (group57.ctx x)) = [true, true, true, true, false] ∧
      answerOf (run .groupSwitch (busy 0x45 [16#8, 1#8] group57)) = some (19, []) :=
  ⟨fun x => by simp [groupMembers], by decide +kernel, by decide +kernel⟩

/-- The ends of the group and mode ranges, a group with members and one without; a request that is the last and one that is not,
at contexts READY, not READY, and out of the group. -/
theorem witness_GroupSwitchTakesEachContext :
    (begunCommand 0x45 (busy 0x45 [15#8, 1#8] up) = some (cmd 0x45 [15#8, 1#8]) ∧
        field (cmdBody (cmd 0x45 [15#8, 1#8])) 0 1 = (15 : Fin 16).val ∧ field (cmdBody (cmd 0x45 [15#8, 1#8])) 1 1 ≤ 1) ∧
      (∀ x, (up.ctx x).state = .undefined) ∧ ((group57.ctx 3).state ≠ .undefined ∧ (group57.ctx 3).group = 3) ∧
      ((at_ (grouping true [0, 1] 0 0 0) group57).agent.progress = some (grouping true [0, 1] 0 0 0) ∧
        (grouping true [0, 1] 0 0 0).stage = .groupSwitch 3 true [0, 1] 0 0 0 ∧ (0 : CtxIx) ∈ [(0 : CtxIx), 1] ∧
        (∃ y ∈ [(0 : CtxIx), 1], y ≠ 0) ∧ (∀ y ∈ [(0 : CtxIx)], y = 0)) ∧
      ((group57.ctx 0).next = some (134, .ready) ∧ nextReady (group57.ctx 1) = false ∧ (group57.ctx 4).state = .undefined) ∧
      (let s := (group57.setSlot 133 ⟨.current, some (0, 41#16), 0#32, 0, 1, 0#256⟩).setSlot 134
         ⟨.ready, some (0, 41#16), 0#32, 0, 0, 0#256⟩
       (s.ctx 0).current = some 133 ∧ (s.slot 133).owner = some (0, (s.ctx 0).generation) ∧ (s.slot 133).state = .current ∧
         (s.slot 134).owner = some (0, (s.ctx 0).generation) ∧ (s.slot 134).state = .ready) ∧
      (up.agent.intake = [] ∧ up.notice.route = none ∧ (noticing 1 up).notice.queue ≠ []) ∧
      (begunCommand 0x45 (busy 0x45 [16#8, 2#8] up) = some (cmd 0x45 [16#8, 2#8]) ∧
        15 < field (cmdBody (cmd 0x45 [16#8, 2#8])) 0 1 ∧ 1 < field (cmdBody (cmd 0x45 [16#8, 2#8])) 1 1) :=
  ⟨by decide +kernel, fun x => by rw [show up.ctx x = State.reset.ctx x from rfl, reset_ctx]; rfl, by decide +kernel,
    by decide +kernel, by decide +kernel, by decide +kernel, by decide +kernel, by decide +kernel⟩

/-! ## Datapath Restart -/

/-- A DATAPATH_RESTART at a step. -/
def restart (st : RestartStep) (free : Bool) : Command := { cmd 0x0A [] with stage := .restart st free }

/-- Steps 1 and 2: the Selector is cleared, a flush of the last lane ends step 2, and its reports hold up step 3. -/
theorem test_restart_1_to_3 :
    (run .datapathRestart (busy 0x0A [] up)).agent.progress = some (restart .selector false) ∧
      (run .restartSelectorClear (at_ (restart .selector false) list15)).selector.default = .drop ∧
      (run (.laneFlush 3 .restart) (at_ (restart (.flush [3]) false) up)).agent.progress = some (restart .contexts false) ∧
      (run .restartContexts (at_ (restart .contexts false) (up.setTransit { up.transit with flushReports := [⟨7, 1#16, true⟩] }))).agent.progress =
        some (restart .contexts false) := by decide +kernel

/-- R116, R119: the flush of a restart reports each PROTECT record with the restart's mark, behind the reports already in transit. -/
theorem test_restart_flush_mark :
    let s := at_ (restart (.flush [0, 3]) false) (lane0 [.protect rec65, .pass [] 1, .protect { rec65 with ctx := 9 }] (messages up))
    (run (.laneFlush 0 .restart) s).transit.flushReports =
      [⟨7, 41#16, false⟩, ⟨7, 40#16, false⟩, ⟨7, 41#16, true⟩, ⟨9, 41#16, true⟩] := by decide +kernel

/-- Step 3: a defined and an UNDEFINED context, a CURRENT slot with frames in flight and a READY next slot. -/
theorem test_restart_contexts :
    let t := run .restartContexts (at_ (restart .contexts false) (with7 { act with flags := 9#8, next := some (134, .ready) } 2 up))
    ((t.ctx 7).state, (t.ctx 7).generation, (t.ctx 7).flags, (t.ctx 8).generation, (t.slot 133).state, (t.slot 134).state) =
      (.undefined, 42#16, 0#8, 1#16, .draining, .scrubbing) := by decide +kernel

/-- Each step, a first flush and a last one, and a slot that a context names. -/
theorem witness_RestartStepsOneToThree :
    begunCommand 0x0A (busy 0x0A [] up) = some (cmd 0x0A []) ∧
      ((at_ (restart .selector false) up).agent.progress = some (restart .selector false) ∧
        (restart .selector false).stage = .restart .selector false) ∧
      ((restart (.flush [0, 1, 2, 3]) false).stage = .restart (.flush [0, 1, 2, 3]) false ∧ (0 : Lane) ∈ [(0 : Lane), 1, 2, 3] ∧
        (3 : Lane) ∈ [(3 : Lane)]) ∧
      ((restart .contexts false).stage = .restart .contexts false ∧
        [(⟨7, 1#16, true⟩ : FlushReport)].any FlushReport.restart = true ∧ up.transit.flushReports.any FlushReport.restart = false) ∧
      (((with7 act 0 up).ctx 7).current = some 133 ∧ ((with7 act 0 up).slot 133).owner = some (7, ((with7 act 0 up).ctx 7).generation) ∧
        ((with7 act 0 up).slot 133).state = .current) ∧
      (let s := with7 { act with next := some (134, .ready) } 0 up
       (s.ctx 7).next = some (134, .ready) ∧ (s.slot 134).owner = some (7, (s.ctx 7).generation) ∧ (s.slot 134).state = .ready) ∧
      (let s := unwrapping 1 (up.setCtx 7 (pending7 .keyless false))
       (s.ctx 7).next = some (133, .pending) ∧ (s.slot 133).owner = some (7, (s.ctx 7).generation) ∧
         (s.slot 133).state = .unwrapping) ∧ (up.slot 133).owner = none := by decide +kernel

/-- Steps 4 and 5: the jobs are discarded, and every slot in use is scrubbed. -/
theorem test_restart_4_and_5 :
    (run .restartJobDiscard (at_ (restart .jobs false) (jobs [dataJob] (some ⟨dataJob, 9#256⟩) up))).ks.jobs = [] ∧
      ((run .restartSlotScrub (at_ (restart .slots false) (with7 act 2 up))).slot 133).state = .scrubbing ∧
      ((run .restartSlotScrub (at_ (restart .slots false) (with7 act 2 up))).slot 0).state = .free := by decide +kernel

/-- Steps 6 to 8 and the end. -/
theorem test_restart_6_to_8 :
    look ((run (.restartCampusDiscard 0) (at_ (restart (.campus [0]) false) burst)).campusOf 0).counters.vals 5 = 186 ∧
      ((run (.restartCampusDiscard 0) (at_ (restart (.campus [0]) false) burst)).campusOf 0).sending = some (0, ⟨[], 1550⟩) ∧
      (run .restartAgeTimer (at_ (restart .age false) (base88 1 1 9 (some ⟨1, 0, 9, 3⟩)))).age.owed = 0 ∧
      (run .restartNoticeUnit (at_ (restart .notice false) (backlog 8#6 0#8))).notice.queue = [] ∧
      answerOf (run .restartSlotsFreeReport (at_ (restart .report true) up)) = some (0, []) := by decide +kernel

/-- R86, R174: a zeroize after the report has been made puts the restart back to wait for the last scrub. -/
theorem test_restart_zeroized :
    let t := run .keyStoreZeroize (at_ (restart .report true) up)
    t.agent.progress = some (restart .report false) ∧ (run .restartSlotsFreeReport t).agent.progress = some (restart .report false) ∧
      (run .keyStoreZeroize (at_ (restart .age true) up)).agent.progress = some (restart .age false) := by decide +kernel

/-- Every step, with the lanes of step 6 first and last, and the last scrub after step 8. -/
theorem witness_RestartStepsFourToEight :
    let s := up.setKs { (slotAt .scrubbing 0).ks with freeSlots := 2303 }
    ((at_ (restart .jobs false) up).agent.progress = some (restart .jobs false) ∧
        (restart .jobs false).stage = .restart .jobs false ∧ (restart .slots false).stage = .restart .slots false) ∧
      ((restart (.campus [0, 1, 2, 3]) true).stage = .restart (.campus [0, 1, 2, 3]) true ∧ (0 : Lane) ∈ [(0 : Lane), 1, 2, 3] ∧
        (3 : Lane) ∈ [(3 : Lane)]) ∧
      ((restart .age true).stage = .restart .age true ∧ (restart .notice true).stage = .restart .notice true ∧
        (restart .report true).stage = .restart .report true ∧ (restart .report false).stage = .restart .report false) ∧
      ((s.slot 133).state = .scrubbing ∧ s.ks.freeSlots = 2303) := by decide +kernel

end Sys2Proof.Tests
end

section
/-! The capacities (O4). `WithinCapacity` is carried through every operation of the model: one lemma per replacement of a block, one
per shared operation, one per command, and the step at the end. -/

namespace Sys2Proof.Machine

variable {s t : State}

/-! ### Replacements of one block -/

/-- A list with room takes one more. -/
theorem length_append_one_le {α : Type} {xs : List α} {n : Nat} (h : xs.length < n) (x : α) : (xs ++ [x]).length ≤ n := by
  rw [List.length_append]; exact h

/-- A state that differs in no buffer or queue, and in no reservation, is within capacity as well. -/
theorem WithinCapacity.congr (h : WithinCapacity s) (rx : t.rx = s.rx) (cipher : t.cipher = s.cipher)
    (campus : t.campus = s.campus) (merge : t.merge = s.merge) (agent : t.agent = s.agent)
    (jobs : t.ks.jobs = s.ks.jobs) (queue : t.notice.queue = s.notice.queue) (owed : t.age.owed = s.age.owed) :
    WithinCapacity t := by
  constructor <;> simp only [State.rxOf, State.cipherOf, State.campusOf, State.mergeOf, *]
  · exact h.rxBuffer
  · exact h.records
  · exact h.campus
  · exact h.relay
  · exact h.control
  · exact h.reserved
  · exact h.intake
  · exact h.jobs
  · exact h.notices
  · exact h.owed

theorem WithinCapacity.setCtx (h : WithinCapacity s) (c : CtxIx) (r : Ctx) : WithinCapacity (s.setCtx c r) :=
  h.congr rfl rfl rfl rfl rfl rfl rfl rfl

theorem WithinCapacity.setSlot (h : WithinCapacity s) (k : SlotIx) (x : Slot) : WithinCapacity (s.setSlot k x) :=
  h.congr rfl rfl rfl rfl rfl rfl rfl rfl

theorem WithinCapacity.setTransit (h : WithinCapacity s) (x : Transit) : WithinCapacity (s.setTransit x) :=
  h.congr rfl rfl rfl rfl rfl rfl rfl rfl

theorem WithinCapacity.setSelector (h : WithinCapacity s) (x : Selector) : WithinCapacity (s.setSelector x) :=
  h.congr rfl rfl rfl rfl rfl rfl rfl rfl

theorem WithinCapacity.setEntry (h : WithinCapacity s) (e : SelIx) (x : SelEntry) : WithinCapacity (s.setEntry e x) :=
  h.setSelector _

theorem WithinCapacity.drawn (h : WithinCapacity s) : WithinCapacity (drawn s) := h.congr rfl rfl rfl rfl rfl rfl rfl rfl

theorem WithinCapacity.setRx (h : WithinCapacity s) (l : Lane) {x : TrunkRx} (hx : octetCount x.buffer ≤ rxBufferBytes) :
    WithinCapacity (s.setRx l x) :=
  { h with
    rxBuffer := fun j => by
      rw [State.setRx_rxOf]; split
      · exact hx
      · exact h.rxBuffer j }

theorem WithinCapacity.setCipher (h : WithinCapacity s) (l : Lane) {x : CipherLane} (hx : x.recs.length ≤ laneRecords) :
    WithinCapacity (s.setCipher l x) :=
  { h with
    records := fun j => by
      rw [State.setCipher_cipherOf]; split
      · exact hx
      · exact h.records j }

theorem WithinCapacity.setCampus (h : WithinCapacity s) (l : Lane) {x : CampusQueue}
    (hx : totalOccupancy x ≤ campusBufferBytes) : WithinCapacity (s.setCampus l x) :=
  { h with
    campus := fun j => by
      rw [State.setCampus_campusOf]; split
      · exact hx
      · exact h.campus j }

theorem WithinCapacity.setKs (h : WithinCapacity s) {x : KeyStore} (hx : x.jobs.length ≤ jobPlaces) :
    WithinCapacity (s.setKs x) := { h with jobs := hx }

theorem WithinCapacity.setAge (h : WithinCapacity s) {x : AgeTimer} (hx : x.owed ≤ owedMax) :
    WithinCapacity (s.setAge x) := { h with owed := hx }

theorem WithinCapacity.setNotice (h : WithinCapacity s) {x : NoticeUnit} (hx : x.queue.length ≤ noticePlaces) :
    WithinCapacity (s.setNotice x) := { h with notices := hx }

/-- A change of the agent that leaves the lane of the command in progress. -/
theorem WithinCapacity.setAgent (h : WithinCapacity s) {a : Agent}
    (hp : a.progress.map Command.lane = s.agent.progress.map Command.lane) (hi : a.intake.length ≤ intakePlaces) :
    WithinCapacity (s.setAgent a) :=
  { h with
    intake := hi
    reserved := fun l => by
      have k := h.reserved l
      simp only [← Option.map_eq_some_iff] at k ⊢
      exact hp ▸ k }

/-- A change of a Return Merge that leaves its reservation. -/
theorem WithinCapacity.setMerge (h : WithinCapacity s) (l : Lane) {m : ReturnMerge} (hr : relayOccupancy m ≤ relayBytes)
    (hc : placesUsed m ≤ controlPlaces) (hv : m.reserved = (s.mergeOf l).reserved) : WithinCapacity (s.setMerge l m) :=
  { h with
    relay := fun j => by
      rw [State.setMerge_mergeOf]; split
      · exact hr
      · exact h.relay j
    control := fun j => by
      rw [State.setMerge_mergeOf]; split
      · exact hc
      · exact h.control j
    reserved := fun j => by
      rw [State.setMerge_mergeOf]; split
      · next e => subst e; rw [hv]; exact h.reserved j
      · exact h.reserved j }

/-- Only the lane of the command in progress has a place reserved. -/
theorem WithinCapacity.reserved_iff (h : WithinCapacity s) {c : Command} (hc : s.agent.progress = some c) (l : Lane) :
    (s.mergeOf l).reserved = true ↔ c.lane = l := by
  rw [h.reserved l, hc]; simp

/-- An IDLE agent has no place reserved. -/
theorem WithinCapacity.not_reserved (h : WithinCapacity s) (hn : s.agent.progress = none) (l : Lane) :
    (s.mergeOf l).reserved = false := by
  simpa [hn] using h.reserved l

/-! ### Events at a context, at the slots and at the selector -/

theorem AtContext.within {c : CtxIx} (k : AtContext c s t) (h : WithinCapacity s) : WithinCapacity t := by
  rw [k.frame]; exact h.congr rfl rfl rfl rfl rfl rfl rfl rfl

theorem slotRequest_within (h : WithinCapacity s) (k : SlotIx) (c : CtxIx) (g : Gen) (f : Slot → Slot) :
    WithinCapacity (slotRequest k c g f s) := by
  rw [slotRequest_frame]; exact h.congr rfl rfl rfl rfl rfl rfl rfl rfl

/-! ### Flags and notices (R185 to R190) -/

theorem queueRecord_within (h : WithinCapacity s) (n : NoticeRecord) (hq : s.notice.queue.length < noticePlaces) :
    WithinCapacity (queueRecord n s) :=
  h.setNotice (length_append_one_le hq n)

theorem ctxRise_within (h : WithinCapacity s) (c : CtxIx) (f : CtxFlag) : WithinCapacity (ctxRise c f s) := by
  unfold ctxRise; split
  · split
    · next hq => exact queueRecord_within h _ hq
    · exact h.setCtx _ _
  · exact h

theorem reportFlags_within (h : WithinCapacity s) (c : CtxIx) (b : BitVec 8) (fs : List CtxFlag) :
    WithinCapacity (reportFlags c b fs s) := by
  induction fs generalizing s with
  | nil => exact h
  | cons f fs ih =>
    unfold reportFlags
    refine ih ?_
    split
    · exact ctxRise_within h c f
    · exact h

theorem reportRises_within (h : WithinCapacity s) (c : CtxIx) (s₀ : State) : WithinCapacity (reportRises c s₀ s) :=
  reportFlags_within h _ _ _

theorem raiseDevice_within (h : WithinCapacity s) (f : DevFlag) : WithinCapacity (raiseDevice f s) := by
  unfold raiseDevice; split
  · exact h
  · have h₁ : WithinCapacity (s.setNotice { s.notice with flags := setFlag s.notice.flags f.bit }) := h.setNotice h.notices
    simp only
    split
    · split
      · next hq => exact queueRecord_within h₁ _ hq
      · exact h₁.setNotice h.notices
    · exact h₁

/-- A freed place may go to an owed mark (R189). -/
theorem takeOwed_within (h : WithinCapacity s) (hq : s.notice.queue.length < noticePlaces) : WithinCapacity (takeOwed s) := by
  unfold takeOwed; split
  · next f _ =>
    have h₁ : WithinCapacity (s.setNotice { s.notice with owed := clearFlag s.notice.owed f.bit }) := h.setNotice h.notices
    exact queueRecord_within h₁ _ hq
  · split
    · exact h
    · split
      · exact h
      · exact queueRecord_within (h.setCtx _ _) _ hq

/-! ### Return Merges (R160 to R164) -/

/-- The frames counted in a control output queue are its control-origin frames (assumption 18). -/
theorem controlFrames_eq (m : ReturnMerge) : controlFrames m = (controlOrigin m).length := by
  unfold controlFrames controlOrigin
  cases m.sending with
  | none => rfl
  | some x =>
    cases x with
    | control f => simp only [List.length_append, List.length_singleton, Nat.add_comm]
    | relayed f => rfl

/-- The places in use are the control-origin frames and the reservation (R161). -/
theorem placesUsed_eq (m : ReturnMerge) : placesUsed m = (controlOrigin m).length + if m.reserved then 1 else 0 := by
  rw [← controlFrames_eq]; rfl

/-- A start uses no further place. -/
theorem mergeStart_placesUsed (m : ReturnMerge) : placesUsed (mergeStart m) = placesUsed m := by
  rw [placesUsed_eq, placesUsed_eq, mergeStart_controlOrigin, mergeStart_reserved]

/-- A frame that starts stays counted in the Relay FIFO's occupancy (R163). -/
theorem mergeStart_relayOccupancy (m : ReturnMerge) : relayOccupancy (mergeStart m) = relayOccupancy m := by
  unfold mergeStart
  split
  · next hs =>
    have hn : m.sending = none := by simp at hs; exact hs.1
    split <;> simp_all [relayOccupancy, octetCount, Nat.add_comm]
  · rfl

/-- An entry uses one place (R161). -/
theorem mergeEnter_placesUsed (f : ControlFrame) (m : ReturnMerge) : placesUsed (mergeEnter f m) = placesUsed m + 1 := by
  rw [placesUsed_eq, placesUsed_eq, mergeEnter_controlOrigin, mergeEnter_reserved]
  simp only [List.length_append, List.length_singleton]; omega

theorem mergeEnter_relayOccupancy (f : ControlFrame) (m : ReturnMerge) : relayOccupancy (mergeEnter f m) = relayOccupancy m := by
  rw [mergeEnter, mergeStart_relayOccupancy]; rfl

/-- A response takes its reserved place, or no place when it is discarded (R161, R164). -/
theorem mergeResponse_placesUsed (f : ControlFrame) {m : ReturnMerge} (h : m.reserved = true) :
    placesUsed (mergeResponse f m) ≤ placesUsed m := by
  rw [placesUsed_eq, placesUsed_eq, mergeResponse_controlOrigin, mergeResponse_reserved, h]
  split <;> simp

theorem mergeResponse_relayOccupancy (f : ControlFrame) (m : ReturnMerge) :
    relayOccupancy (mergeResponse f m) = relayOccupancy m := by
  unfold mergeResponse; split
  · rw [mergeEnter_relayOccupancy]; rfl
  · rfl

/-- The room that a frame in transmission holds is given up with it. -/
theorem sent_frees (m : ReturnMerge) (c : MergeCounter) (k : Nat) :
    relayOccupancy (({ m with sending := none } : ReturnMerge).count c k) ≤ relayOccupancy m ∧
      placesUsed (({ m with sending := none } : ReturnMerge).count c k) ≤ placesUsed m :=
  ⟨Nat.add_le_add_left (Nat.zero_le _) (octetCount m.relay),
    Nat.add_le_add_right (Nat.add_le_add_left (Nat.zero_le _) m.control.length) _⟩

/-- A transmission that ends frees what its frame held (R163). -/
theorem mergeEnd_frees (m : ReturnMerge) :
    relayOccupancy (mergeEnd m) ≤ relayOccupancy m ∧ placesUsed (mergeEnd m) ≤ placesUsed m ∧
      (mergeEnd m).reserved = m.reserved := by
  unfold mergeEnd; split
  · exact ⟨Nat.le_refl _, Nat.le_refl _, rfl⟩
  all_goals
    rw [mergeStart_relayOccupancy, mergeStart_placesUsed, mergeStart_reserved]
    exact ⟨(sent_frees m _ 1).1, (sent_frees m _ 1).2, rfl⟩

/-- A link that goes down empties the queues and keeps the reservation (R164). -/
theorem mergeDown_frees (m : ReturnMerge) :
    relayOccupancy (mergeDown m) ≤ relayOccupancy m ∧ placesUsed (mergeDown m) ≤ placesUsed m ∧
      (mergeDown m).reserved = m.reserved := by
  unfold mergeDown; split
  · refine ⟨Nat.zero_le (relayOccupancy m), ?_, rfl⟩
    show 0 + 0 + (if m.reserved = true then 1 else 0) ≤ _
    unfold placesUsed; omega
  · exact ⟨Nat.le_refl _, Nat.le_refl _, rfl⟩

theorem mergeUp_occupancy (m : ReturnMerge) :
    relayOccupancy (mergeUp m) = relayOccupancy m ∧ placesUsed (mergeUp m) = placesUsed m ∧
      (mergeUp m).reserved = m.reserved := by
  unfold mergeUp; split
  · exact ⟨rfl, rfl, rfl⟩
  · rw [mergeStart_relayOccupancy, mergeStart_placesUsed, mergeStart_reserved]
    exact ⟨rfl, rfl, rfl⟩

/-- A change of a Return Merge that takes no room is within capacity. -/
theorem WithinCapacity.freeMerge (h : WithinCapacity s) (l : Lane) {m : ReturnMerge}
    (hm : relayOccupancy m ≤ relayOccupancy (s.mergeOf l) ∧ placesUsed m ≤ placesUsed (s.mergeOf l) ∧
      m.reserved = (s.mergeOf l).reserved) : WithinCapacity (s.setMerge l m) :=
  h.setMerge l (Nat.le_trans hm.1 (h.relay l)) (Nat.le_trans hm.2.1 (h.control l)) hm.2.2

theorem trunkStart_within (h : WithinCapacity s) (l : Lane) : WithinCapacity (trunkStart l s) :=
  h.freeMerge l ⟨Nat.le_of_eq (mergeStart_relayOccupancy _), Nat.le_of_eq (mergeStart_placesUsed _), mergeStart_reserved _⟩

theorem countMerge_within (h : WithinCapacity s) (l : Lane) (c : MergeCounter) : WithinCapacity (countMerge l c s) :=
  h.setMerge l (h.relay l) (h.control l) rfl

/-- A campus frame enters the Relay FIFO only where it fits (R162). -/
theorem relayFrame_within (h : WithinCapacity s) (l : Lane) (f : Bytes) : WithinCapacity (relayFrame l f s) := by
  unfold relayFrame; simp only
  split
  · exact countMerge_within h l _
  · split
    · next hf =>
      refine h.setMerge l ?_ ?_ (mergeStart_reserved _)
      · rw [mergeRelay, mergeStart_relayOccupancy]
        refine Nat.le_trans (Nat.le_of_eq ?_) hf
        simp only [relayOccupancy, octetCount, List.map_append, List.sum_append, List.map_cons, List.map_nil, List.sum_cons,
          List.sum_nil]
        omega
      · rw [mergeRelay, mergeStart_placesUsed]; exact h.control l
    · exact raiseDevice_within (countMerge_within h l _) _

theorem campusArrival_within (h : WithinCapacity s) (l : Lane) (rx : RxFrame) : WithinCapacity (campusArrival l rx s) := by
  unfold campusArrival; split
  · exact relayFrame_within h l _
  · exact countMerge_within h l _

/-! ### Departure (R189 to R191) -/

theorem depart_within (h : WithinCapacity s) : WithinCapacity (depart s) := by
  unfold depart
  split
  · next r n rest hr hq =>
    split
    · next hn =>
      have hroom : placesUsed (s.mergeOf r.lane) < controlPlaces := by
        simp only [noticeReady, hr, hq, Bool.and_eq_true] at hn
        simpa [hasRoom] using hn.2
      have hlen : rest.length < noticePlaces := by have := h.notices; rw [hq] at this; exact this
      have h₁ := h.setNotice (x := { s.notice with queue := rest, sequence := s.notice.sequence + 1 })
        (Nat.le_of_lt hlen)
      refine takeOwed_within (h₁.setMerge _ ?_ ?_ (mergeEnter_reserved _ _)) hlen
      · rw [mergeEnter_relayOccupancy]; exact h.relay _
      · rw [mergeEnter_placesUsed]; exact hroom
    · exact h
  · exact h

theorem departNew_within (h : WithinCapacity s) (s₀ : State) : WithinCapacity (departNew s₀ s) := by
  unfold departNew; split
  · exact depart_within h
  · exact h

/-! ### The Control Agent (R148 to R161) -/

/-- The command in progress takes another stage; its lane, and so the reservation, stays. -/
theorem setStage_within (h : WithinCapacity s) {c : Command} (hc : s.agent.progress = some c) (st : Stage) :
    WithinCapacity (setStage c st s) :=
  h.setAgent (by simp [hc]) h.intake

/-- The agent becomes IDLE as the lane of its command gives up the reservation. -/
theorem WithinCapacity.endCommand (h : WithinCapacity s) {c : Command} (hc : s.agent.progress = some c) {m : ReturnMerge}
    {a : Agent} (hr : relayOccupancy m ≤ relayOccupancy (s.mergeOf c.lane))
    (hm : placesUsed m ≤ placesUsed (s.mergeOf c.lane)) (hv : m.reserved = false) (hp : a.progress = none)
    (hi : a.intake.length ≤ intakePlaces) : WithinCapacity ((s.setMerge c.lane m).setAgent a) where
  rxBuffer := h.rxBuffer
  records := h.records
  campus := h.campus
  relay j := by
    rw [State.setAgent_mergeOf, State.setMerge_mergeOf]; split
    · exact Nat.le_trans hr (h.relay _)
    · exact h.relay j
  control j := by
    rw [State.setAgent_mergeOf, State.setMerge_mergeOf]; split
    · exact Nat.le_trans hm (h.control _)
    · exact h.control j
  reserved j := by
    have k : (s.mergeOf j).reserved = true → j = c.lane := fun x => ((h.reserved_iff hc j).1 x).symm
    rw [State.setAgent_mergeOf, State.setMerge_mergeOf, State.setAgent_agent, hp]
    split
    · simp [hv]
    · next e => simpa using fun x => e (k x)
  intake := hi
  jobs := h.jobs
  notices := h.notices
  owed := h.owed

theorem respond_within (h : WithinCapacity s) {c : Command} (hc : s.agent.progress = some c) (st : Status) (body : Bytes) :
    WithinCapacity (respond c st body s) :=
  h.endCommand hc (Nat.le_of_eq (mergeResponse_relayOccupancy _ _))
    (mergeResponse_placesUsed _ ((h.reserved_iff hc _).2 rfl)) (mergeResponse_reserved _ _) rfl h.intake

theorem abandon_within (h : WithinCapacity s) {c : Command} (hc : s.agent.progress = some c) :
    WithinCapacity (abandon c s) := by
  refine h.endCommand hc (Nat.le_refl _) ?_ rfl rfl h.intake
  rw [placesUsed_eq, placesUsed_eq]; simp [controlOrigin]

/-- The head of intake becomes the command in progress as a place for its response is reserved (R153). -/
theorem WithinCapacity.beginCommand (h : WithinCapacity s) (hn : s.agent.progress = none) {l : Lane}
    (hl : hasRoom (s.mergeOf l) = true) {c : Command} (hc : c.lane = l) {a : Agent} (hp : a.progress = some c)
    (hi : a.intake.length ≤ intakePlaces) :
    WithinCapacity ((s.setMerge l { s.mergeOf l with reserved := true }).setAgent a) where
  rxBuffer := h.rxBuffer
  records := h.records
  campus := h.campus
  relay j := by
    rw [State.setAgent_mergeOf, State.setMerge_mergeOf]; split
    · exact h.relay l
    · exact h.relay j
  control j := by
    rw [State.setAgent_mergeOf, State.setMerge_mergeOf]; split
    · simp only [hasRoom, decide_eq_true_eq] at hl
      rw [placesUsed_eq] at hl ⊢
      simp only [controlOrigin] at hl ⊢
      split at hl <;> simp at hl ⊢ <;> omega
    · exact h.control j
  reserved j := by
    have k := h.not_reserved hn j
    rw [State.setAgent_mergeOf, State.setMerge_mergeOf, State.setAgent_agent, hp]
    split
    · next e => simp [hc, e]
    · next e => simp [k, hc, Ne.symm e]
  intake := hi
  jobs := h.jobs
  notices := h.notices
  owed := h.owed

theorem beginHead_within (h : WithinCapacity s) (hr : agentReady s = true) : WithinCapacity (beginHead s) := by
  simp only [agentReady, Bool.and_eq_true, Option.isNone_iff_eq_none] at hr
  obtain ⟨hn, hr⟩ := hr
  unfold beginHead
  split
  · exact h
  · next f rest hf =>
    rw [hf] at hr
    have hroom : hasRoom (s.mergeOf f.lane) = true := (Bool.and_eq_true_iff.1 hr).2
    have hi : rest.length ≤ intakePlaces := by have := h.intake; rw [hf] at this; exact Nat.le_of_succ_le this
    have begun : ∀ c : Command, c.lane = f.lane → ∀ p n, WithinCapacity
        ((s.setMerge f.lane { s.mergeOf f.lane with reserved := true }).setAgent
          ⟨rest, some c, s.agent.address, s.agent.envelopeType, p, n⟩) :=
      fun c hc p n => h.beginCommand hn hroom hc rfl hi
    simp only
    split
    · exact respond_within (begun ⟨f.lane, f.frame, s.agent.serial + 1, .begun none⟩ rfl s.agent.counters
        (s.agent.serial + 1)) rfl _ _
    · split
      · exact begun _ rfl _ _
      · exact begun _ rfl _ _

theorem purgeList_within (fs : List IntakeFrame) (h : WithinCapacity s) (hf : fs.length ≤ intakePlaces) :
    WithinCapacity (purgeList fs s) := by
  induction fs generalizing s with
  | nil => exact h
  | cons f fs ih =>
    have hl : fs.length ≤ intakePlaces := Nat.le_of_succ_le hf
    unfold purgeList
    split
    · have h₁ : WithinCapacity (s.setAgent (({ s.agent with intake := fs } : Agent).count .authFailures 1)) :=
        h.setAgent rfl hl
      exact ih (raiseDevice_within h₁ _) hl
    · exact h

theorem purge_within (h : WithinCapacity s) : WithinCapacity (purge s) := by
  unfold purge; split
  · exact purgeList_within _ h h.intake
  · exact h

theorem agentLoop_within (n : Nat) (h : WithinCapacity s) : WithinCapacity (agentLoop n s) := by
  induction n generalizing s with
  | zero => exact h
  | succ n ih =>
    unfold agentLoop; split
    · next hr => exact ih (beginHead_within (purge_within h) hr)
    · exact purge_within h

theorem agentRun_within (h : WithinCapacity s) : WithinCapacity (agentRun s) := agentLoop_within _ h

theorem endLoop_within (n : Nat) (s₀ : State) (h : WithinCapacity s) : WithinCapacity (endLoop n s₀ s) := by
  induction n generalizing s with
  | zero => exact departNew_within h _
  | succ n ih =>
    have hp := purge_within h
    unfold endLoop; simp only
    split
    · next hr =>
      split
      · split
        · exact agentRun_within (depart_within hp.drawn)
        · exact ih (beginHead_within hp.drawn hr)
      · exact ih (beginHead_within hp hr)
    · exact departNew_within hp _

theorem settle_within (h : WithinCapacity s) (s₀ : State) : WithinCapacity (settle s₀ s) := endLoop_within _ _ h

theorem answer_within (h : WithinCapacity s) {c : Command} (hc : s.agent.progress = some c) (s₀ : State) (st : Status)
    (body : Bytes) : WithinCapacity (answer s₀ c st body s) := by
  unfold answer; split
  · split
    · exact agentRun_within (respond_within (depart_within h.drawn) (by rw [depart_agent]; exact hc) _ _)
    · exact settle_within (respond_within h.drawn hc _ _) _
  · exact settle_within (respond_within h hc _ _) _

/-- The own effect of a station command taken in `s` is within capacity and leaves the command in progress. -/
def Taken.Within (s : State) : Taken → Prop
  | .refuse _ => True
  | .done _ _ u => WithinCapacity u ∧ u.agent.progress = s.agent.progress
  | .waits _ u => WithinCapacity u ∧ u.agent.progress = s.agent.progress

theorem Taken.Within.done {u : State} {st : Status} {body : Bytes} (h : WithinCapacity u)
    (hp : u.agent.progress = s.agent.progress) : Taken.Within s (.done st body u) := ⟨h, hp⟩

theorem Taken.Within.waits {u : State} {stage : Stage} (h : WithinCapacity u) (hp : u.agent.progress = s.agent.progress) :
    Taken.Within s (.waits stage u) := ⟨h, hp⟩

theorem refuseIf_within {k : Taken} (hk : k.Within s) (b : Bool) (st : Status) : (refuseIf b st k).Within s := by
  unfold refuseIf; split
  · trivial
  · exact hk

/-- A command that waits to be taken is the command in progress. -/
theorem begunCommand_progress {code : Nat} {c : Command} (h : begunCommand code s = some c) : s.agent.progress = some c := by
  unfold begunCommand at h
  split at h
  · cases h
  · next d hd =>
    split at h
    · split at h
      · rw [hd, ← h]
      · cases h
    · cases h

theorem takeCommand_within (h : WithinCapacity s) (code : Nat) {act : Command → State → Taken}
    (ha : ∀ c, s.agent.progress = some c → (act c s).Within s) : WithinCapacity (takeCommand code act s) := by
  cases hb : begunCommand code s with
  | none => rw [takeCommand_absent hb]; exact h
  | some c =>
    have hc := begunCommand_progress hb
    have hw := ha c hc
    rw [takeCommand_begun hb]
    cases hact : act c s with
    | refuse st => exact answer_within h hc _ _ _
    | done st body u => rw [hact] at hw; exact answer_within hw.1 (hw.2.trans hc) _ _ _
    | waits stage u => rw [hact] at hw; exact settle_within (setStage_within hw.1 (hw.2.trans hc) _) _

end Sys2Proof.Machine
end

section
/-! The capacities (O4): the lanes, the context events, the Age Timer and the Campus Queues. -/

namespace Sys2Proof.Machine

variable {s t : State}

/-! ### Trunk Receive and the Cipher Lanes (R4, R106, R107) -/

theorem octetCount_cons (f : Bytes) (fs : List Bytes) : octetCount (f :: fs) = f.length + octetCount fs := rfl

theorem octetCount_append (fs gs : List Bytes) : octetCount (fs ++ gs) = octetCount fs + octetCount gs := by
  simp [octetCount]

/-- The buffer without its head frame. -/
theorem WithinCapacity.rxRest (h : WithinCapacity s) {l : Lane} {f : Bytes} {rest : List Bytes}
    (hb : (s.rxOf l).buffer = f :: rest) : octetCount rest ≤ rxBufferBytes := by
  have := h.rxBuffer l
  rw [hb, octetCount_cons] at this
  omega

theorem countRx_within (h : WithinCapacity s) (l : Lane) (c : RxCounter) (k : Nat) : WithinCapacity (countRx l c k s) :=
  h.setRx l (h.rxBuffer l)

theorem laneTake_within (h : WithinCapacity s) (l : Lane) : WithinCapacity (laneTake l s) := by
  unfold laneTake
  split
  · next hr =>
    have hroom : (s.cipherOf l).recs.length < laneRecords := by
      simp only [takeReady, Bool.and_eq_true, decide_eq_true_eq] at hr; exact hr.1.2
    split
    · next f rest _ hb =>
      have h₁ : WithinCapacity (s.setRx l { s.rxOf l with buffer := rest, headAction := none }) := h.setRx l (h.rxRest hb)
      have one : ∀ r : Rec, ((s.cipherOf l).recs ++ [r]).length ≤ laneRecords := length_append_one_le hroom
      simp only
      split
      · split
        · exact h₁.setTransit _
        · exact h₁.setCipher l (one _)
      · exact h₁.setCipher l (one _)
    · exact h
  · exact h

theorem lookupHead_within (h : WithinCapacity s) {l : Lane} {f : Bytes} {rest : List Bytes}
    (hb : (s.rxOf l).buffer = f :: rest) : WithinCapacity (lookupHead l f rest s) := by
  have drop : ∀ {u : State} (_ : WithinCapacity u) c, WithinCapacity (dropHead l c rest u) := fun hu c =>
    countRx_within (hu.setRx l (h.rxRest hb)) l c 1
  have head : ∀ {u : State} (_ : WithinCapacity u) a, WithinCapacity (setHead l a u) := fun hu a =>
    hu.setRx l (hu.rxBuffer l)
  unfold lookupHead
  split
  · have hit := fun e x => h.setEntry e x
    simp only
    split
    · exact drop (hit _ _) _
    · exact head (hit _ _) _
    · exact head (hit _ _) _
  · split
    · exact drop h _
    · exact head (countRx_within h l _ _) _

theorem selectorLookup_within (h : WithinCapacity s) (l : Lane) : WithinCapacity (selectorLookup l s) := by
  unfold selectorLookup; split
  · next hb => exact laneTake_within (lookupHead_within h hb) l
  · exact h

theorem admitData_within (h : WithinCapacity s) (l : Lane) (f : Bytes) : WithinCapacity (admitData l f s) := by
  unfold admitData; split
  · next hf => exact h.setRx l (by rw [octetCount_append, octetCount_cons]; exact hf)
  · exact countRx_within h l _ _

theorem countAgent_within (h : WithinCapacity s) (c : AgentCounter) : WithinCapacity (countAgent c s) :=
  h.setAgent rfl h.intake

/-- A frame enters intake where intake has a place (R152). -/
theorem enterIntake_within (h : WithinCapacity s) (l : Lane) (f : Bytes) (auth : Bool) :
    WithinCapacity (enterIntake l f auth s) := by
  unfold enterIntake; split
  · next hi => exact h.setAgent rfl (length_append_one_le hi _)
  · exact raiseDevice_within (countAgent_within h _) _

theorem agentArrival_within (h : WithinCapacity s) (l : Lane) (f : Bytes) : WithinCapacity (agentArrival l f s) := by
  unfold agentArrival
  repeat' split
  · exact countAgent_within h _
  · exact enterIntake_within h l f _
  · exact countAgent_within h _
  · exact enterIntake_within h l f _
  · exact raiseDevice_within (countAgent_within h _) _

theorem trunkArrival_within (h : WithinCapacity s) (l : Lane) (rx : RxFrame) : WithinCapacity (trunkArrival l rx s) := by
  have accept : ∀ f, WithinCapacity (acceptFrame l f s) := fun f => by
    have h₁ := countRx_within (countRx_within h l .acceptedFrames 1) l .acceptedBytes f.length
    unfold acceptFrame; simp only; split
    · exact agentArrival_within (countRx_within h₁ l _ _) l f
    · exact admitData_within h₁ l f
  unfold trunkArrival; split
  · exact countRx_within h l _ _
  · split
    · exact accept _
    · exact countRx_within h l _ _
    · exact countRx_within h l _ _

theorem laneDropReport_within (h : WithinCapacity s) (n : Nat) : WithinCapacity (laneDropReport n s) := by
  unfold laneDropReport; split
  · exact h
  · exact countRx_within (h.setTransit _) _ _ _

theorem discardProtect_within (h : WithinCapacity s) (l : Lane) (k : SlotIx) (c : CtxIx) (g : Gen) (restart : Bool) :
    WithinCapacity (discardProtect l k c g restart s) := by
  have h₁ : WithinCapacity (reportFlushDrop c g restart (releaseInFlight k c g s)) :=
    (slotRequest_within h k c g _).setTransit _
  exact h₁.setCipher l (h₁.records l)

/-- An answer replaces the youngest record by one or none (R109, R117). -/
theorem closeRequest_within (h : WithinCapacity s) (l : Lane) {r : Rec} (hr : (s.cipherOf l).recs.getLast? = some r)
    {rs : List Rec} (hs : rs.length ≤ 1) : WithinCapacity (closeRequest l rs s) := by
  have hne : (s.cipherOf l).recs ≠ [] := fun e => by simp [e] at hr
  have hp := List.length_pos_iff.2 hne
  have hl := h.records l
  refine h.setCipher l ?_
  simp only [replaceYoungest, List.length_append, List.length_dropLast]
  omega

theorem takeAnswer_within (h : WithinCapacity s) (l : Lane) (q : AdmissionReq) (a : Admission) :
    WithinCapacity (takeAnswer l q a s) := by
  have close : ∀ {r}, (s.cipherOf l).recs.getLast? = some r → WithinCapacity (closeRequest l [] s) := fun hr =>
    closeRequest_within h l hr (by simp)
  unfold takeAnswer
  split
  · next hr => exact closeRequest_within h l hr (by simp)
  · next hr => exact discardProtect_within (close hr) _ _ _ _ _
  · next hr => exact (close hr).setTransit _
  · next hr => exact (close hr).setTransit _
  · next hr => exact close hr
  · next hr => exact close hr
  · next hr => exact close hr
  · next hr => exact close hr
  · exact h.setCipher l (h.records l)

theorem admissionRequest_within (h : WithinCapacity s) (l : Lane) : WithinCapacity (admissionRequest l s) := by
  unfold admissionRequest; split
  · exact h
  · next q _ =>
    have h₁ := (decideAdmission_event q s).reaches.within h
    exact departNew_within (laneTake_within (takeAnswer_within (reportRises_within h₁ _ _) l q _) l) _

/-! ### Events at a context record (R33, R60, R79) -/

theorem flushDropReport_within (h : WithinCapacity s) (n : Nat) : WithinCapacity (flushDropReport n s) := by
  unfold flushDropReport; split
  · exact h
  · simp only; split
    · exact departNew_within (reportRises_within ((h.setTransit _).setCtx _ _) _ _) _
    · exact h.setTransit _

theorem queueDropReport_within (h : WithinCapacity s) (n : Nat) : WithinCapacity (queueDropReport n s) := by
  unfold queueDropReport; split
  · exact h
  · simp only; split
    · exact departNew_within (reportRises_within ((h.setTransit _).setCtx _ _) _ _) _
    · exact h.setTransit _

theorem takeResult_within (h : WithinCapacity s) (r : DataResult) : WithinCapacity (takeResult r s) := by
  have counted : ∀ k x (n m a : Nat), WithinCapacity ((s.setSlot k x).setKs
      { (s.setSlot k x).ks with successes := n, failures := m, setAside := a }) := fun k x _ _ _ =>
    (h.setSlot k x).setKs h.jobs
  unfold takeResult; split
  · exact h
  · split
    · exact counted _ _ _ _ _
    · split
      · unfold bindSuccess; simp only; split
        · exact (switchCtx_at _ _).within ((counted _ _ _ _ _).setCtx _ _)
        · exact (counted _ _ _ _ _).setCtx _ _
      · exact (counted _ _ _ _ _).setCtx _ _

theorem dataResult_within (h : WithinCapacity s) (n : Nat) : WithinCapacity (dataResult n s) := by
  unfold dataResult; split
  · exact h
  · exact departNew_within (reportRises_within (takeResult_within (h.setTransit _) _) _ _) _

theorem ageVisit_within (h : WithinCapacity s) (c : CtxIx) (inc : Nat) : WithinCapacity (ageVisit c inc s) := by
  obtain ⟨u, hu, e⟩ := ageVisit_event c inc s
  rw [e]
  exact reportRises_within (hu.reaches.within h) _ _

/-! ### The Age Timer (R138, R140) -/

theorem startPass_owed (a : AgeTimer) : (startPass a).owed = 0 := by
  unfold startPass; split <;> rfl

theorem passStart_owed (a : AgeTimer) : (passStart a).owed ≤ a.owed := by
  unfold passStart; split
  · rw [startPass_owed]; exact Nat.zero_le _
  · exact Nat.le_refl _

theorem advancePass_owed (a : AgeTimer) : (advancePass a).owed ≤ a.owed := by
  unfold advancePass; split
  · exact Nat.le_refl _
  · split
    · exact Nat.le_refl _
    · exact passStart_owed _

/-- A tick is owed while fewer than 15 are, and lost otherwise (R138). -/
theorem ageTick_within (h : WithinCapacity s) : WithinCapacity (ageTick s) := by
  unfold ageTick; split
  · exact h.setAge (by rw [startPass_owed]; exact Nat.zero_le _)
  · split
    · next hl =>
      have h₁ : WithinCapacity (s.setAge { s.age with owed := s.age.owed + 1 }) := h.setAge (Nat.succ_le_of_lt hl)
      exact raiseDevice_within h₁ _
    · have h₁ : WithinCapacity (s.setAge { s.age with lostTicks := satAdd s.age.lostTicks 1 }) := h.setAge h.owed
      exact raiseDevice_within h₁ _

theorem countStep_within (h : WithinCapacity s) : WithinCapacity (countStep s) := by
  unfold countStep; split
  · exact h.setAge h.owed
  · exact ageTick_within (h.setAge h.owed)

theorem referenceTick_within (h : WithinCapacity s) : WithinCapacity (referenceTick s) := by
  unfold referenceTick; split
  · exact h.setAge h.owed
  · exact countStep_within (h.setAge h.owed)

theorem whenEnabled_within (h : WithinCapacity s) {f : State → State} (hf : WithinCapacity (f s)) :
    WithinCapacity (whenEnabled f s) := by
  unfold whenEnabled; split
  · exact departNew_within hf _
  · exact h

theorem sweepVisit_within (h : WithinCapacity s) : WithinCapacity (sweepVisit s) := by
  unfold sweepVisit; split
  · exact h
  · next place c inc _ =>
    have h₁ := ageVisit_within h.drawn c inc
    refine departNew_within ?_ _
    unfold closeVisit; split
    · exact h₁.setAge (Nat.le_trans (advancePass_owed _) h₁.owed)
    · exact h₁.setTransit _

theorem abandonPass_within (h : WithinCapacity s) : WithinCapacity (abandonPass s) :=
  (h.setAge (Nat.zero_le _)).setTransit _

/-! ### Campus Queues (R121 to R134) -/

theorem totalOccupancy_mono {q r : CampusQueue} (h : ∀ c, classOccupancy q c ≤ classOccupancy r c) :
    totalOccupancy q ≤ totalOccupancy r :=
  Nat.add_le_add (Nat.add_le_add (Nat.add_le_add (h 0) (h 1)) (h 2)) (h 3)

/-- A class occupancy is made of its queue and the frame in transmission (R121). -/
theorem classOccupancy_le {q r : CampusQueue} {c : Cls} (hq : look q.queues c = look r.queues c ∨ look q.queues c = [])
    (hs : q.sending = r.sending ∨ q.sending = none) : classOccupancy q c ≤ classOccupancy r c := by
  unfold classOccupancy
  refine Nat.add_le_add ?_ ?_
  · rcases hq with e | e
    · simp only [e, Nat.le_refl]
    · rw [e]; exact Nat.zero_le _
  · rcases hs with e | e
    · simp only [e, Nat.le_refl]
    · simp only [e, Nat.zero_le]

theorem campusEnd_totalOccupancy (q : CampusQueue) : totalOccupancy (campusEnd q) ≤ totalOccupancy q := by
  unfold campusEnd; split
  · exact Nat.le_refl _
  · rw [campusStart_totalOccupancy]
    exact totalOccupancy_mono fun c => classOccupancy_le (.inl rfl) (.inr rfl)

theorem campusDown_totalOccupancy (q : CampusQueue) : totalOccupancy (campusDown q) ≤ totalOccupancy q := by
  unfold campusDown; split
  · exact totalOccupancy_mono fun c => classOccupancy_le (.inr (by simp [CampusQueue.count])) (.inr rfl)
  · exact Nat.le_refl _

theorem campusRestart_totalOccupancy (q : CampusQueue) : totalOccupancy (campusRestart q) ≤ totalOccupancy q :=
  totalOccupancy_mono fun c => classOccupancy_le (.inr (by simp [campusRestart, CampusQueue.count])) (.inl rfl)

/-- A change of a Campus Queue that takes no room is within capacity. -/
theorem WithinCapacity.freeCampus (h : WithinCapacity s) (l : Lane) {q : CampusQueue}
    (hq : totalOccupancy q ≤ totalOccupancy (s.campusOf l)) : WithinCapacity (s.setCampus l q) :=
  h.setCampus l (Nat.le_trans hq (h.campus l))

/-- A frame queued adds its L_out to its class occupancy and to no other (R121). -/
theorem classOccupancy_queued (q : CampusQueue) (c d : Cls) (f : CampusFrame) :
    classOccupancy { q with queues := put q.queues c (look q.queues c ++ [f]) } d =
      classOccupancy q d + if d = c then f.lOut else 0 := by
  unfold classOccupancy
  rw [look_put]
  split
  · next e => subst e; simp [lOutSum]; omega
  · rfl

theorem totalOccupancy_queued (q : CampusQueue) (c : Cls) (f : CampusFrame) :
    totalOccupancy { q with queues := put q.queues c (look q.queues c ++ [f]) } = totalOccupancy q + f.lOut := by
  have one : ((if 0 = c then f.lOut else 0) + (if 1 = c then f.lOut else 0) + (if 2 = c then f.lOut else 0) +
      if 3 = c then f.lOut else 0) = f.lOut := by
    match c with
    | 0 | 1 | 2 | 3 => simp
  simp only [totalOccupancy, classOccupancy_queued]
  omega

theorem reportQueueDrop_within (h : WithinCapacity s) (owner : Option (CtxIx × Gen)) :
    WithinCapacity (reportQueueDrop owner s) := by
  unfold reportQueueDrop; split
  · exact h
  · exact h.setTransit _

/-- A frame handed over is queued only where both tests pass (R122). -/
theorem handOver_within (h : WithinCapacity s) (l : Lane) (c : Cls) (f : CampusFrame) (owner : Option (CtxIx × Gen)) :
    WithinCapacity (handOver l c f owner s) := by
  unfold handOver; simp only
  split
  · split
    · next hf =>
      refine h.setCampus l ?_
      rw [campusStart_totalOccupancy, totalOccupancy_queued]
      simp only [campusFits, Bool.and_eq_true, decide_eq_true_eq] at hf
      exact hf.2
    · have h₁ : WithinCapacity (s.setCampus l ((s.campusOf l).count (.queueDrops c) 1)) := h.setCampus l (h.campus l)
      exact reportQueueDrop_within h₁ _
  · exact h.setCampus l (h.campus l)

/-! ### Completion and flushing (R110 to R119) -/

theorem dropRecord_within (h : WithinCapacity s) {l : Lane} {r : Rec} {rest : List Rec}
    (hr : (s.cipherOf l).recs = r :: rest) : WithinCapacity (dropRecord l rest s) :=
  h.setCipher l (by have := h.records l; rw [hr] at this; exact Nat.le_of_succ_le this)

theorem passCompletion_within (h : WithinCapacity s) (l : Lane) : WithinCapacity (passCompletion l s) := by
  unfold passCompletion; split
  · next hr => exact laneTake_within (handOver_within (dropRecord_within h hr) _ _ _ _) l
  · exact h

theorem protectCompletion_within (h : WithinCapacity s) (l : Lane) : WithinCapacity (protectCompletion l s) := by
  unfold protectCompletion; split
  · next hr =>
    have h₁ := dropRecord_within h hr
    simp only; split
    · exact laneTake_within (slotRequest_within (handOver_within h₁ _ _ _ _) _ _ _ _) l
    · exact laneTake_within (discardProtect_within h₁ _ _ _ _ _) l
  · exact h

theorem inFlightDecrease_within (h : WithinCapacity s) (k : SlotIx) (c : CtxIx) (g : Gen) :
    WithinCapacity (inFlightDecrease k c g s) := by
  unfold inFlightDecrease; split
  · exact slotRequest_within h _ _ _ _
  · exact h

theorem flushRecords_within (h : WithinCapacity s) (l : Lane) (restart : Bool) (rs : List Rec) :
    WithinCapacity (flushRecords l restart rs s) := by
  induction rs generalizing s with
  | nil => exact h
  | cons r rs ih =>
    unfold flushRecords
    refine ih ?_
    cases r with
    | pass f c => exact h.setCipher l (h.records l)
    | protect p => exact discardProtect_within h _ _ _ _ _
    | reserved f e c => exact h
    | flushed => exact h

/-- A flush keeps a record for each RESERVED or FLUSHED one, and no more (R116). -/
theorem flushLane_within (h : WithinCapacity s) (l : Lane) (restart : Bool) : WithinCapacity (flushLane l restart s) := by
  refine laneTake_within ((flushRecords_within h l restart _).setCipher l ?_) l
  rw [List.length_map]
  exact Nat.le_trans (List.length_filter_le _ _) (h.records l)

end Sys2Proof.Machine
end

section
/-! The capacities (O4): the Key Store, zeroize, reset, restart, the station commands, and the step. -/

namespace Sys2Proof.Machine

variable {s t : State}

/-! ### The Key Store (R65 to R86) -/

/-- Starting jobs shortens the queue or leaves it. -/
theorem startJobs_jobs (s : State) : (startJobs s).ks.jobs.length ≤ s.ks.jobs.length := by
  unfold startJobs; split
  · exact startFrom_jobs _ _ (Nat.le_refl _)
  · exact Nat.le_refl _

/-- A queue of one job too many is within capacity once the IDLE engine has started what it may. -/
theorem startJobs_within (h : WithinCapacity s) : WithinCapacity (startJobs s) := by
  have hj := Nat.le_trans (startJobs_jobs s) h.jobs
  rw [startJobs_frame]
  exact { h with jobs := hj }

/-- A job is queued only where the job queue has a place (R76). -/
theorem queueJob_within (h : WithinCapacity s) (j : Job) (hj : s.ks.jobs.length < jobPlaces) :
    WithinCapacity (queueJob j s) :=
  startJobs_within (h.setKs (length_append_one_le hj j))

theorem startJobs_agent (s : State) : (startJobs s).agent = s.agent := by rw [startJobs_frame]

theorem failData_within (h : WithinCapacity s) (k : SlotIx) (c : CtxIx) (g : Gen) (cause : UnwrapCause) :
    WithinCapacity (failData k c g cause s) := by
  have h₁ : WithinCapacity (recordFailure (.data k c g) cause s) := h.setKs h.jobs
  exact h₁.setTransit _

theorem dataSuccess_within (h : WithinCapacity s) (k : SlotIx) (c : CtxIx) (g : Gen) (key : Key) :
    WithinCapacity (dataSuccess k c g key s) := by
  unfold dataSuccess; simp only; split
  · exact (h.setSlot _ _).setTransit _
  · exact h.setTransit _

/-- The command that waits on a job is the command in progress. -/
theorem waitingCommand_progress {n : Nat} {c : Command} (h : waitingCommand n s = some c) : s.agent.progress = some c := by
  unfold waitingCommand at h
  split at h
  · cases h
  · next d hd =>
    split at h
    · rw [hd, ← h]
    · cases h

theorem answerJob_within (h : WithinCapacity s) (s₀ : State) (n : Nat) (st : Status) (body : Bytes) :
    WithinCapacity (answerJob s₀ n st body s) := by
  unfold answerJob; split
  · next hc => exact answer_within h (waitingCommand_progress hc) _ _ _
  · exact h

theorem finishJob_within (h : WithinCapacity s) (s₀ : State) (j : Job) (res : Option Key) :
    WithinCapacity (finishJob s₀ j res s) := by
  have keyed : ∀ (keks : Vector (Option Key) 4) (mk : Option Key) (n m : Nat) (f : Option (FailTarget × UnwrapCause)),
      WithinCapacity (s.setKs { s.ks with keks := keks, mgmtKey := mk, successes := n, failures := m, lastFailure := f }) :=
    fun _ _ _ _ _ => h.setKs h.jobs
  unfold finishJob
  split
  · exact startJobs_within (dataSuccess_within h _ _ _ _)
  · exact startJobs_within (failData_within h _ _ _ _)
  · exact answerJob_within (startJobs_within (keyed _ _ _ _ _)) _ _ _ _
  · exact answerJob_within (startJobs_within (keyed _ _ _ _ _)) _ _ _ _
  · exact answerJob_within (startJobs_within (keyed _ _ _ _ _)) _ _ _ _
  · exact answerJob_within (startJobs_within (keyed _ _ _ _ _)) _ _ _ _

theorem jobComplete_within (h : WithinCapacity s) : WithinCapacity (jobComplete s) := by
  unfold jobComplete; split
  · exact h
  · have h₁ : WithinCapacity (s.setKs { s.ks with running := none }) := h.setKs h.jobs
    exact finishJob_within h₁ _ _ _

theorem reportSlotsFree_within (h : WithinCapacity s) : WithinCapacity (reportSlotsFree s) := by
  have stage : ∀ {c : Command} (_ : s.agent.progress = some c) (P : Prop) [Decidable P] st,
      WithinCapacity (if P then setStage c st s else s) := fun hc P _ st => by
    split
    · exact setStage_within h hc st
    · exact h
  unfold reportSlotsFree
  split
  · exact h
  · next hc =>
    split
    · exact stage hc _ _
    · exact stage hc _ _
    · exact stage hc _ _
    · exact stage hc _ _
    · exact h

theorem scrubComplete_within (h : WithinCapacity s) (k : SlotIx) : WithinCapacity (scrubComplete k s) := by
  unfold scrubComplete; split
  · have h₁ : WithinCapacity (s.setSlot k (freedSlot (s.slot k))) := h.setSlot _ _
    exact reportSlotsFree_within (h₁.setKs h₁.jobs)
  · exact h

theorem withdrawReport_within (h : WithinCapacity s) : WithinCapacity (withdrawReport s) := by
  unfold withdrawReport; split
  · exact h
  · next hc =>
    split
    · exact setStage_within h hc _
    · exact h

theorem keyStoreZeroize_within (h : WithinCapacity s) : WithinCapacity (keyStoreZeroize s) := by
  have h₁ : WithinCapacity (s.setKs (zeroizedStore s.ks)) := h.setKs (Nat.zero_le _)
  exact departNew_within (raiseDevice_within (raiseDevice_within (withdrawReport_within (h₁.setTransit _)) _) _) _

theorem contextZeroize_within (h : WithinCapacity s) : WithinCapacity (contextZeroize s) :=
  h.congr rfl rfl rfl rfl rfl rfl rfl rfl

theorem agentZeroize_within (h : WithinCapacity s) : WithinCapacity (agentZeroize s) := by
  have h₁ : WithinCapacity (s.setAgent (({ s.agent with intake := [] } : Agent).count .zeroizeDiscards
      s.agent.intake.length)) := h.setAgent rfl (Nat.zero_le _)
  unfold agentZeroize; simp only; split
  · exact h₁
  · next hc =>
    split
    · exact settle_within (abandon_within h₁ hc) _
    · exact h₁

theorem jobDiscardReport_within (h : WithinCapacity s) (n : Nat) : WithinCapacity (jobDiscardReport n s) := by
  unfold jobDiscardReport; split
  · exact h
  · simp only; split
    · exact h.setTransit _
    · next hc =>
      have h₁ : WithinCapacity (s.setTransit { s.transit with discardReports := s.transit.discardReports.eraseIdx n }) :=
        h.setTransit _
      exact settle_within (abandon_within h₁ (waitingCommand_progress hc)) _

/-! ### Device reset -/

theorem State.reset_rxOf (l : Lane) : State.reset.rxOf l = TrunkRx.reset := by simp [State.reset, State.rxOf]

theorem State.reset_cipherOf (l : Lane) : State.reset.cipherOf l = CipherLane.reset := by simp [State.reset, State.cipherOf]

theorem State.reset_campusOf (l : Lane) : State.reset.campusOf l = CampusQueue.reset := by simp [State.reset, State.campusOf]

theorem State.reset_mergeOf (l : Lane) : State.reset.mergeOf l = ReturnMerge.reset := by simp [State.reset, State.mergeOf]

/-- Every buffer and queue is empty after reset, and the agent is IDLE. -/
theorem reset_within : WithinCapacity State.reset where
  rxBuffer l := by rw [State.reset_rxOf]; decide
  records l := by rw [State.reset_cipherOf]; decide
  campus l := by rw [State.reset_campusOf]; decide
  relay l := by rw [State.reset_mergeOf]; decide
  control l := by rw [State.reset_mergeOf]; decide
  reserved l := by rw [State.reset_mergeOf]; simp [ReturnMerge.reset, State.reset, Agent.reset]
  intake := Nat.zero_le _
  jobs := Nat.zero_le _
  notices := Nat.zero_le _
  owed := Nat.zero_le _

theorem deviceReset_within (p : Lane) (m z : Bool) (s : State) : WithinCapacity (deviceReset p m z s) := by
  have h : WithinCapacity { State.reset with provLane := p, mkOnce := m, draws := s.draws, pending := s.pending } :=
    reset_within.congr rfl rfl rfl rfl rfl rfl rfl rfl
  unfold deviceReset; simp only; split
  · refine raiseDevice_within ?_ _
    exact h.congr rfl rfl rfl rfl rfl rfl rfl rfl
  · exact h

/-! ### Datapath Restart (R173) -/

/-- A restart in progress is the command in progress. -/
theorem restartAt_progress {c : Command} {step : RestartStep} {free : Bool} (h : restartAt s = some (c, step, free)) :
    s.agent.progress = some c := by
  unfold restartAt at h
  split at h
  · cases h
  · next hd =>
    split at h
    · cases h; exact hd
    · cases h

theorem restartFlush_progress {l : Lane} {c : Command} {left : List Lane} {free : Bool}
    (h : restartFlush l s = some (c, left, free)) : s.agent.progress = some c := by
  unfold restartFlush at h
  split at h
  · cases h
  · next hd =>
    split at h
    · split at h
      · cases h; exact hd
      · cases h
    · cases h

theorem discardProtect_agent (l : Lane) (k : SlotIx) (c : CtxIx) (g : Gen) (restart : Bool) (s : State) :
    (discardProtect l k c g restart s).agent = s.agent := by
  show (slotRequest k c g decreaseSlot s).agent = s.agent
  rw [slotRequest_frame]

theorem flushRecords_agent (l : Lane) (restart : Bool) (rs : List Rec) (s : State) :
    (flushRecords l restart rs s).agent = s.agent := by
  induction rs generalizing s with
  | nil => rfl
  | cons r rs ih =>
    unfold flushRecords
    rw [ih]
    cases r with
    | pass f c => rfl
    | protect p => exact discardProtect_agent _ _ _ _ _ _
    | reserved f e c => rfl
    | flushed => rfl

/-- A flush leaves the agent as it is. -/
theorem flushLane_agent (l : Lane) (restart : Bool) (s : State) : (flushLane l restart s).agent = s.agent := by
  unfold flushLane
  rw [laneTake_frame]
  exact flushRecords_agent _ _ _ _

theorem laneFlush_within (h : WithinCapacity s) (l : Lane) (cause : FlushCause) : WithinCapacity (laneFlush l cause s) := by
  unfold laneFlush; split
  · exact flushLane_within h _ _
  · split
    · exact h
    · next hc =>
      exact setStage_within (flushLane_within h _ _) ((congrArg Agent.progress (flushLane_agent _ _ _)).trans
        (restartFlush_progress hc)) _

theorem restartSelector_within (h : WithinCapacity s) : WithinCapacity (restartSelector s) := by
  unfold restartSelector; split
  · next hc =>
    have h₁ : WithinCapacity (s.setSelector Selector.reset) := h.setSelector _
    exact setStage_within h₁ (restartAt_progress hc) _
  · exact h

theorem restartContextStep_within (h : WithinCapacity s) : WithinCapacity (restartContextStep s) := by
  unfold restartContextStep; split
  · next hc =>
    split
    · exact h
    · have h₁ : WithinCapacity (restartContexts s) := h.congr rfl rfl rfl rfl rfl rfl rfl rfl
      exact setStage_within h₁ (restartAt_progress hc) _
  · exact h

theorem restartJobs_within (h : WithinCapacity s) : WithinCapacity (restartJobs s) := by
  unfold restartJobs; split
  · next hc =>
    have h₁ : WithinCapacity (s.setKs { s.ks with jobs := [], running := none }) := h.setKs (Nat.zero_le _)
    exact setStage_within h₁ (restartAt_progress hc) _
  · exact h

theorem restartSlots_within (h : WithinCapacity s) : WithinCapacity (restartSlots s) := by
  unfold restartSlots; split
  · next hc =>
    have h₁ : WithinCapacity (s.setKs { s.ks with slots := every restartSlot s.ks.slots }) := h.setKs h.jobs
    exact setStage_within h₁ (restartAt_progress hc) _
  · exact h

theorem restartCampus_within (h : WithinCapacity s) (l : Lane) : WithinCapacity (restartCampus l s) := by
  unfold restartCampus; split
  · next hc =>
    split
    · exact setStage_within (h.freeCampus l (campusRestart_totalOccupancy _)) (restartAt_progress hc) _
    · exact h
  · exact h

theorem restartAge_within (h : WithinCapacity s) : WithinCapacity (restartAge s) := by
  unfold restartAge; split
  · next hc => exact setStage_within (abandonPass_within h) (restartAt_progress hc) _
  · exact h

theorem restartNotice_within (h : WithinCapacity s) : WithinCapacity (restartNotice s) := by
  unfold restartNotice; split
  · next hc =>
    have h₁ : WithinCapacity (s.setNotice { s.notice with queue := [], owed := 0#6 }) := h.setNotice (Nat.zero_le _)
    exact setStage_within h₁ (restartAt_progress hc) _
  · exact h

theorem restartReport_within (h : WithinCapacity s) : WithinCapacity (restartReport s) := by
  unfold restartReport; split
  · next hc => exact answer_within h (restartAt_progress hc) _ _ _
  · exact h

/-! ### Station commands: what each does at its owner -/

theorem mgmtKeySet_within (h : WithinCapacity s) (c : Command) : (mgmtKeySet c s).Within s := by
  refine refuseIf_within ?_ _ _
  split
  · refine refuseIf_within (.done ?_ rfl) _ _
    exact h.setKs h.jobs
  · refine refuseIf_within (refuseIf_within ?_ _ _) _ _
    unfold refuseIf; split
    · trivial
    · next hj =>
      have hj : s.ks.jobs.length < jobPlaces := by simpa using hj
      exact ⟨queueJob_within h _ hj, congrArg Agent.progress (startJobs_agent _)⟩

theorem sweepRangeSet_within (h : WithinCapacity s) (c : Command) : (sweepRangeSet c s).Within s := by
  unfold sweepRangeSet; split
  · exact .done (h.setAge h.owed) rfl
  · trivial

theorem timeBaseSet_within (h : WithinCapacity s) (c : Command) : (timeBaseSet c s).Within s := by
  refine refuseIf_within (.done (h.setAge ?_) rfl) _ _
  unfold timeBaseStored; split <;> exact h.owed

theorem laneSet_within (h : WithinCapacity s) (c : Command) : (laneSet c s).Within s := by
  unfold laneSet; simp only; split
  · trivial
  · exact .done (h.setCampus _ (h.campus _)) rfl

theorem laneCountersRead_within (h : WithinCapacity s) (c : Command) : (laneCountersRead c s).Within s := by
  unfold laneCountersRead; split
  · trivial
  · exact refuseIf_within (.waits h rfl) _ _

theorem noticeRouteSet_within (h : WithinCapacity s) (c : Command) : (noticeRouteSet c s).Within s := by
  unfold noticeRouteSet; simp only; split
  · exact .done (h.setNotice h.notices) rfl
  · split
    · trivial
    · exact .done (h.setNotice h.notices) rfl

theorem noticeEnableSet_within (h : WithinCapacity s) (c : Command) : (noticeEnableSet c s).Within s := by
  refine refuseIf_within (.done ?_ rfl) _ _
  exact h.setNotice h.notices

theorem attentionClear_within (h : WithinCapacity s) (c : Command) : (attentionClear c s).Within s := by
  unfold attentionClear; simp only; split
  · refine refuseIf_within (.done ?_ rfl) _ _
    exact h.setNotice h.notices
  · split
    · trivial
    · exact .done (h.setCtx _ _) rfl

theorem selectorWrite_within (h : WithinCapacity s) (c : Command) : (selectorWrite c s).Within s := by
  unfold selectorWrite; simp only; split
  · trivial
  · repeat refine refuseIf_within ?_ _ _
    exact .done (h.setEntry _ _) rfl

theorem selectorInvalidate_within (h : WithinCapacity s) (c : Command) : (selectorInvalidate c s).Within s := by
  unfold selectorInvalidate; split
  · trivial
  · exact .done (h.setEntry _ _) rfl

theorem selectorRead_within (h : WithinCapacity s) (c : Command) : (selectorRead c s).Within s := by
  unfold selectorRead; split
  · trivial
  · exact refuseIf_within (.done (h.setEntry _ _) rfl) _ _

theorem defaultActionSet_within (h : WithinCapacity s) (c : Command) : (defaultActionSet c s).Within s :=
  refuseIf_within (.done (h.setSelector _) rfl) _ _

theorem contextDefine_within (h : WithinCapacity s) (c : Command) : (contextDefine c s).Within s := by
  unfold contextDefine; simp only; split
  · trivial
  · exact refuseIf_within (refuseIf_within (.done (h.setCtx _ _) rfl) _ _) _ _

theorem reportRises_agent (c : CtxIx) (s₀ s : State) : (reportRises c s₀ s).agent = s.agent := by
  rw [reportRises_eq]; rfl

theorem AtContext.agent {c : CtxIx} (k : AtContext c s t) : t.agent = s.agent := by rw [k.frame]

theorem modifyCtx_within (h : WithinCapacity s) (c : CtxIx) (b : Bytes) :
    WithinCapacity (modifyCtx c b s) ∧ (modifyCtx c b s).agent = s.agent := by
  have h₁ := h.setCtx c (modifiedRecord (s.ctx c) b)
  unfold modifyCtx; simp only; split
  · have k := (reevaluate_event c (s.setCtx c (modifiedRecord (s.ctx c) b))).reaches
    exact ⟨reportRises_within (k.within h₁) _ _, (reportRises_agent _ _ _).trans k.agent⟩
  · exact ⟨h₁, rfl⟩

theorem contextModify_within (h : WithinCapacity s) (c : Command) : (contextModify c s).Within s := by
  unfold contextModify; simp only; split
  · trivial
  · next x _ =>
    obtain ⟨hw, ha⟩ := modifyCtx_within h x (cmdBody c)
    exact refuseIf_within (refuseIf_within (.done hw (congrArg Agent.progress ha)) _ _) _ _

theorem clearCtx_at (c : CtxIx) (s : State) : AtContext c s (clearCtx c s) :=
  ((AtContext.releaseRef _ _ _ _).trans (AtContext.releaseRef _ _ _ _)).trans (AtContext.setCtx _ _ _)

theorem contextClear_within (h : WithinCapacity s) (c : Command) : (contextClear c s).Within s := by
  unfold contextClear; split
  · trivial
  · next x _ =>
    have k := clearCtx_at x s
    exact refuseIf_within (.done (k.within h) (congrArg Agent.progress k.agent)) _ _

theorem contextRead_within (h : WithinCapacity s) (c : Command) : (contextRead c s).Within s := by
  unfold contextRead; split
  · trivial
  · exact ⟨h, rfl⟩

theorem contextFlag_within (h : WithinCapacity s) (c : Command) : (contextFlag c s).Within s := by
  unfold contextFlag; simp only; split
  · trivial
  · exact refuseIf_within (refuseIf_within (.done (h.setCtx _ _) rfl) _ _) _ _

theorem contextCountersRead_within (h : WithinCapacity s) (c : Command) : (contextCountersRead c s).Within s := by
  unfold contextCountersRead; simp only; split
  · trivial
  · exact refuseIf_within (.done (h.setCtx _ _) rfl) _ _

theorem kekLoad_within (h : WithinCapacity s) (c : Command) : (kekLoad c s).Within s := by
  unfold kekLoad; simp only; split
  · trivial
  · refine refuseIf_within (refuseIf_within ?_ _ _) _ _
    unfold refuseIf; split
    · trivial
    · next hj =>
      have hj : s.ks.jobs.length < jobPlaces := by simpa [jobsFull] using hj
      exact ⟨queueJob_within h _ hj, congrArg Agent.progress (startJobs_agent _)⟩

theorem kekErase_within (h : WithinCapacity s) (c : Command) : (kekErase c s).Within s := by
  unfold kekErase; split
  · trivial
  · exact .done (h.setKs h.jobs) rfl

theorem raiseDevice_agent (f : DevFlag) (s : State) : (raiseDevice f s).agent = s.agent := by
  unfold raiseDevice; simp only; repeat' split
  all_goals rfl

theorem poolCheck_within (h : WithinCapacity s) : WithinCapacity (poolCheck s) := by
  unfold poolCheck; split
  · exact raiseDevice_within h _
  · exact h

theorem poolCheck_agent (s : State) : (poolCheck s).agent = s.agent := by
  unfold poolCheck; split
  · exact raiseDevice_agent _ _
  · rfl

/-- A reservation queues its job where the job queue has a place (R66, R76). -/
theorem reserve_within (h : WithinCapacity s) (c : CtxIx) (kek : KekIx) (salt : BitVec 32) (wrapped : Bytes) (k : SlotIx)
    (hj : s.ks.jobs.length < jobPlaces) : WithinCapacity (reserve c kek salt wrapped k s) := by
  have h₁ := h.setSlot k (reservedSlot c (s.ctx c).generation kek salt)
  have h₂ : WithinCapacity ((s.setSlot k (reservedSlot c (s.ctx c).generation kek salt)).setKs
      { (s.setSlot k (reservedSlot c (s.ctx c).generation kek salt)).ks with
        freeSlots := (s.setSlot k (reservedSlot c (s.ctx c).generation kek salt)).ks.freeSlots - 1 }) := h₁.setKs h₁.jobs
  exact poolCheck_within (queueJob_within (h₂.setCtx _ _) _ hj)

theorem reserve_agent (c : CtxIx) (kek : KekIx) (salt : BitVec 32) (wrapped : Bytes) (k : SlotIx) (s : State) :
    (reserve c kek salt wrapped k s).agent = s.agent :=
  (poolCheck_agent _).trans (startJobs_agent _)

theorem keyLoad_within (h : WithinCapacity s) (c : Command) : (keyLoad c s).Within s := by
  unfold keyLoad; simp only; split
  · refine refuseIf_within (refuseIf_within (refuseIf_within ?_ _ _) _ _) _ _
    unfold refuseIf; split
    · trivial
    · next hj =>
      have hj : s.ks.jobs.length < jobPlaces := by simpa [jobsFull] using hj
      split
      · trivial
      · exact ⟨reserve_within h _ _ _ _ _ hj, congrArg Agent.progress (reserve_agent _ _ _ _ _ _)⟩
  · trivial

theorem discardNext_at (c : CtxIx) (s : State) : AtContext c s (discardNext c s) :=
  (AtContext.releaseRef _ _ _ _).trans (AtContext.setCtx _ _ _)

theorem nextDiscard_within (h : WithinCapacity s) (c : Command) : (nextDiscard c s).Within s := by
  unfold nextDiscard; split
  · trivial
  · next x _ =>
    have k := discardNext_at x s
    exact refuseIf_within (.done (k.within h) (congrArg Agent.progress k.agent)) _ _

theorem requestSwitch_within (h : WithinCapacity s) (c : CtxIx) :
    WithinCapacity (requestSwitch c s) ∧ (requestSwitch c s).agent = s.agent := by
  unfold requestSwitch; split
  · exact ⟨reportRises_within ((switchCtx_at c s).within h) _ _, (reportRises_agent _ _ _).trans (switchCtx_at c s).agent⟩
  · exact ⟨h.setCtx _ _, rfl⟩

theorem switchRequest_within (h : WithinCapacity s) (c : Command) : (switchRequest c s).Within s := by
  unfold switchRequest; split
  · trivial
  · next x _ =>
    obtain ⟨hw, ha⟩ := requestSwitch_within h x
    exact refuseIf_within (.done hw (congrArg Agent.progress ha)) _ _

theorem groupSwitch_within (h : WithinCapacity s) (c : Command) : (groupSwitch c s).Within s := by
  unfold groupSwitch; simp only; split
  · trivial
  · refine refuseIf_within ?_ _ _
    cases (groupMembers _ s).isEmpty
    · exact .waits h rfl
    · exact .done h rfl

/-! ### Station commands that go on (R155) -/

theorem deviceStatusRead_within (h : WithinCapacity s) (c : Command) :
    Taken.Within s (match c.stage with
      | .begun part => .waits (.gatherStatus none none part none none) s
      | _ => .waits (.gatherStatus none none none none none) s) := by
  split <;> exact ⟨h, rfl⟩

theorem statusGathered_within (h : WithinCapacity s) {c : Command} (hc : s.agent.progress = some c)
    (k a g e n : Option Bytes) : WithinCapacity (statusGathered c k a g e n s) := by
  unfold statusGathered; split
  · exact answer_within h hc _ _ _
  · exact setStage_within h hc _

theorem statusSnapshot_within (h : WithinCapacity s) (b : StatusBlock) : WithinCapacity (statusSnapshot b s) := by
  unfold statusSnapshot; split
  · exact h
  · next hc =>
    split
    · split
      all_goals exact statusGathered_within h hc _ _ _ _ _
    · exact h

theorem laneGathered_within (h : WithinCapacity s) {c : Command} (hc : s.agent.progress = some c) (s₀ : State) (l : Lane)
    (clear : Bool) (r p q m : Option Bytes) : WithinCapacity (laneGathered s₀ c l clear r p q m s) := by
  unfold laneGathered; split
  · exact answer_within h hc _ _ _
  · exact setStage_within h hc _

/-- A snapshot changes counters alone. -/
theorem laneSnapshot_within (h : WithinCapacity s) (b : LaneBlock) : WithinCapacity (laneSnapshot b s) := by
  unfold laneSnapshot; split
  · exact h
  · next hc =>
    split
    · next l clear r p q m _ =>
      split
      · have h₁ : WithinCapacity (s.setRx l { s.rxOf l with counters := clearedIf clear (s.rxOf l).counters }) :=
          h.setRx l (h.rxBuffer l)
        exact laneGathered_within h₁ hc _ _ _ _ _ _ _
      · have h₁ : WithinCapacity (s.setCipher l
            { s.cipherOf l with flushDrops := clearedIf clear (s.cipherOf l).flushDrops }) := h.setCipher l (h.records l)
        exact laneGathered_within h₁ hc _ _ _ _ _ _ _
      · have h₁ : WithinCapacity (s.setCampus l
            { s.campusOf l with counters := clearedIf clear (s.campusOf l).counters }) := h.setCampus l (h.campus l)
        exact laneGathered_within h₁ hc _ _ _ _ _ _ _
      · have h₁ : WithinCapacity (s.setMerge l { s.mergeOf l with counters := clearedIf clear (s.mergeOf l).counters }) :=
          h.setMerge l (h.relay l) (h.control l) rfl
        exact laneGathered_within h₁ hc _ _ _ _ _ _ _
      · exact h
    · exact h

theorem groupGoesOn_within (h : WithinCapacity s) {c : Command} (hc : s.agent.progress = some c) (s₀ : State) (g : Fin 16)
    (hold : Bool) (left : List CtxIx) (x y z : Nat) : WithinCapacity (groupGoesOn s₀ c g hold left x y z s) := by
  unfold groupGoesOn; split
  · exact answer_within h hc _ _ _
  · exact departNew_within (setStage_within h hc _) _

theorem groupSwitchRequest_within (h : WithinCapacity s) (c : CtxIx) : WithinCapacity (groupSwitchRequest c s) := by
  unfold groupSwitchRequest; split
  · exact h
  · next hc =>
    split
    · split
      · simp only; split
        · split
          · have k := switchCtx_at c s
            exact groupGoesOn_within (reportRises_within (k.within h) _ _)
              ((congrArg Agent.progress ((reportRises_agent _ _ _).trans k.agent)).trans hc) _ _ _ _ _ _ _
          · split
            · exact groupGoesOn_within (h.setCtx _ _) hc _ _ _ _ _ _ _
            · exact groupGoesOn_within h hc _ _ _ _ _ _ _
        · exact groupGoesOn_within h hc _ _ _ _ _ _ _
      · exact h
    · exact h

/-! ### Every command, and the step -/

theorem exec_within (h : WithinCapacity s) (i : Instr) : ∃ t, exec i s = .next t ∧ WithinCapacity t := by
  cases i with
  | deviceReset p m z => exact ⟨_, rfl, deviceReset_within p m z s⟩
  | trunkFrameTaken l rx => exact ⟨_, rfl, settle_within (trunkArrival_within h l rx) _⟩
  | selectorLookup l => exact ⟨_, rfl, selectorLookup_within h l⟩
  | laneFrameTake l => exact ⟨_, rfl, laneTake_within h l⟩
  | admissionRequest l => exact ⟨_, rfl, admissionRequest_within h l⟩
  | passRecordCompletion l => exact ⟨_, rfl, passCompletion_within h l⟩
  | protectRecordCompletion l => exact ⟨_, rfl, protectCompletion_within h l⟩
  | inFlightDecrease k c g => exact ⟨_, rfl, inFlightDecrease_within h k c g⟩
  | flushDropReport n => exact ⟨_, rfl, flushDropReport_within h n⟩
  | queueDropReport n => exact ⟨_, rfl, queueDropReport_within h n⟩
  | laneDropReport n => exact ⟨_, rfl, laneDropReport_within h n⟩
  | campusTransmitStart l => exact ⟨_, rfl, h.freeCampus l (Nat.le_of_eq (campusStart_totalOccupancy _))⟩
  | campusTransmitEnd l => exact ⟨_, rfl, h.freeCampus l (campusEnd_totalOccupancy _)⟩
  | campusLinkDown l => exact ⟨_, rfl, h.freeCampus l (campusDown_totalOccupancy _)⟩
  | campusLinkUp l => exact ⟨_, rfl, h.setCampus l (h.campus l)⟩
  | unwrapJobStart => exact ⟨_, rfl, startJobs_within h⟩
  | unwrapJobComplete => exact ⟨_, rfl, jobComplete_within h⟩
  | dataResult n => exact ⟨_, rfl, dataResult_within h n⟩
  | scrubComplete k => exact ⟨_, rfl, scrubComplete_within h k⟩
  | referenceTick => exact ⟨_, rfl, whenEnabled_within h (referenceTick_within h)⟩
  | countStep => exact ⟨_, rfl, whenEnabled_within h (countStep_within h)⟩
  | ageTick => exact ⟨_, rfl, whenEnabled_within h (ageTick_within h)⟩
  | passStart => exact ⟨_, rfl, h.setAge (Nat.le_trans (passStart_owed _) h.owed)⟩
  | sweepVisit => exact ⟨_, rfl, sweepVisit_within h⟩
  | commandBegin => exact ⟨_, rfl, settle_within h _⟩
  | identify => exact ⟨_, rfl, takeCommand_within h _ fun _ _ => ⟨h, rfl⟩⟩
  | deviceStatusRead => exact ⟨_, rfl, takeCommand_within h _ fun c _ => deviceStatusRead_within h c⟩
  | statusSnapshot b => exact ⟨_, rfl, statusSnapshot_within h b⟩
  | mgmtKeySet => exact ⟨_, rfl, takeCommand_within h _ fun c _ => mgmtKeySet_within h c⟩
  | deviceAddressSet => exact ⟨_, rfl, takeCommand_within h _ fun _ _ => ⟨h.setAgent rfl h.intake, rfl⟩⟩
  | envelopeTypeSet =>
    refine ⟨_, rfl, takeCommand_within h _ fun _ _ => refuseIf_within (.done ?_ rfl) _ _⟩
    exact h.setAgent rfl h.intake
  | timeBaseSet => exact ⟨_, rfl, takeCommand_within h _ fun c _ => timeBaseSet_within h c⟩
  | sweepRangeSet => exact ⟨_, rfl, takeCommand_within h _ fun c _ => sweepRangeSet_within h c⟩
  | laneSet => exact ⟨_, rfl, takeCommand_within h _ fun c _ => laneSet_within h c⟩
  | laneCountersRead => exact ⟨_, rfl, takeCommand_within h _ fun c _ => laneCountersRead_within h c⟩
  | laneSnapshot b => exact ⟨_, rfl, laneSnapshot_within h b⟩
  | datapathRestart => exact ⟨_, rfl, takeCommand_within h _ fun _ _ => ⟨h, rfl⟩⟩
  | restartSelectorClear => exact ⟨_, rfl, restartSelector_within h⟩
  | laneFlush l cause => exact ⟨_, rfl, laneFlush_within h l cause⟩
  | restartContexts => exact ⟨_, rfl, restartContextStep_within h⟩
  | restartJobDiscard => exact ⟨_, rfl, restartJobs_within h⟩
  | restartSlotScrub => exact ⟨_, rfl, restartSlots_within h⟩
  | restartCampusDiscard l => exact ⟨_, rfl, restartCampus_within h l⟩
  | restartAgeTimer => exact ⟨_, rfl, restartAge_within h⟩
  | restartNoticeUnit => exact ⟨_, rfl, restartNotice_within h⟩
  | restartSlotsFreeReport => exact ⟨_, rfl, restartReport_within h⟩
  | noticeRouteSet => exact ⟨_, rfl, takeCommand_within h _ fun c _ => noticeRouteSet_within h c⟩
  | noticeEnableSet => exact ⟨_, rfl, takeCommand_within h _ fun c _ => noticeEnableSet_within h c⟩
  | attentionClear => exact ⟨_, rfl, takeCommand_within h _ fun c _ => attentionClear_within h c⟩
  | selectorWrite => exact ⟨_, rfl, takeCommand_within h _ fun c _ => selectorWrite_within h c⟩
  | selectorInvalidate => exact ⟨_, rfl, takeCommand_within h _ fun c _ => selectorInvalidate_within h c⟩
  | selectorRead => exact ⟨_, rfl, takeCommand_within h _ fun c _ => selectorRead_within h c⟩
  | defaultActionSet => exact ⟨_, rfl, takeCommand_within h _ fun c _ => defaultActionSet_within h c⟩
  | contextDefine => exact ⟨_, rfl, takeCommand_within h _ fun c _ => contextDefine_within h c⟩
  | contextModify => exact ⟨_, rfl, takeCommand_within h _ fun c _ => contextModify_within h c⟩
  | contextClear => exact ⟨_, rfl, takeCommand_within h _ fun c _ => contextClear_within h c⟩
  | contextRead => exact ⟨_, rfl, takeCommand_within h _ fun c _ => contextRead_within h c⟩
  | contextFlag => exact ⟨_, rfl, takeCommand_within h _ fun c _ => contextFlag_within h c⟩
  | contextCountersRead => exact ⟨_, rfl, takeCommand_within h _ fun c _ => contextCountersRead_within h c⟩
  | kekLoad => exact ⟨_, rfl, takeCommand_within h _ fun c _ => kekLoad_within h c⟩
  | kekErase => exact ⟨_, rfl, takeCommand_within h _ fun c _ => kekErase_within h c⟩
  | keyLoad => exact ⟨_, rfl, takeCommand_within h _ fun c _ => keyLoad_within h c⟩
  | nextDiscard => exact ⟨_, rfl, takeCommand_within h _ fun c _ => nextDiscard_within h c⟩
  | switchRequest => exact ⟨_, rfl, takeCommand_within h _ fun c _ => switchRequest_within h c⟩
  | groupSwitch => exact ⟨_, rfl, takeCommand_within h _ fun c _ => groupSwitch_within h c⟩
  | groupSwitchRequest c => exact ⟨_, rfl, groupSwitchRequest_within h c⟩
  | keyStoreZeroize => exact ⟨_, rfl, keyStoreZeroize_within h⟩
  | contextZeroize => exact ⟨_, rfl, contextZeroize_within h⟩
  | ageTimerZeroize => exact ⟨_, rfl, abandonPass_within h⟩
  | agentZeroize => exact ⟨_, rfl, agentZeroize_within h⟩
  | jobDiscardReport n => exact ⟨_, rfl, jobDiscardReport_within h n⟩
  | zeroizeRelease => exact ⟨_, rfl, h.setKs h.jobs⟩
  | campusFrameReceived l rx => exact ⟨_, rfl, departNew_within (campusArrival_within h l rx) _⟩
  | trunkTransmitStart l => exact ⟨_, rfl, trunkStart_within h l⟩
  | trunkTransmitEnd l => exact ⟨_, rfl, settle_within (h.freeMerge l (mergeEnd_frees _)) _⟩
  | trunkLinkDown l => exact ⟨_, rfl, settle_within (h.freeMerge l (mergeDown_frees _)) _⟩
  | trunkLinkUp l =>
    obtain ⟨hr, hp, hv⟩ := mergeUp_occupancy (s.mergeOf l)
    exact ⟨_, rfl, departNew_within (h.freeMerge l ⟨Nat.le_of_eq hr, Nat.le_of_eq hp, hv⟩) _⟩
  | noticeDeparture => exact ⟨_, rfl, depart_within h⟩

/-- Settles O4: `exec_within`, at the command that the step takes from the front of the queue. -/
theorem capacitiesHold : Obligations.CapacitiesHold := by
  unfold Obligations.CapacitiesHold
  intro s t h ht
  cases hp : s.pending with
  | nil =>
    simp only [step, hp] at ht
    cases ht; exact h
  | cons c rest =>
    have h₁ : WithinCapacity { s with pending := rest } := h.congr rfl rfl rfl rfl rfl rfl rfl rfl
    obtain ⟨u, hu, hw⟩ := exec_within h₁ c
    simp only [step, hp, hu] at ht
    cases ht; exact hw

end Sys2Proof.Machine
end

section
/-! The state after reset (O2) and the blocks after DEVICE_RESET (O13). -/

namespace Sys2Proof.Machine

theorem State.reset_ctx (c : CtxIx) : State.reset.ctx c = Ctx.reset := by simp [State.reset, State.ctx]

theorem State.reset_slot (k : SlotIx) : State.reset.slot k = Slot.reset := by
  simp [State.reset, State.slot, KeyStore.reset]

theorem State.reset_entry (e : SelIx) : State.reset.entry e = SelEntry.reset := by
  simp [State.reset, State.entry, Selector.reset]

theorem CounterSet.zero_bounded (n : Nat) : (CounterSet.zero n).bounded := fun i => by simp [CounterSet.zero]

theorem reset_countersBounded : CountersBounded State.reset where
  rx l := by rw [State.reset_rxOf]; exact CounterSet.zero_bounded 11
  hits e := by rw [State.reset_entry]; exact CounterSet.zero_bounded 1
  ctx c := by rw [State.reset_ctx]; exact CounterSet.zero_bounded 6
  blocks c := by rw [State.reset_ctx]; exact Nat.zero_le _
  age c := by rw [State.reset_ctx]; exact Nat.zero_le _
  jobs := ⟨Nat.zero_le _, Nat.zero_le _, Nat.zero_le _⟩
  flush l := by rw [State.reset_cipherOf]; exact CounterSet.zero_bounded 1
  campus l := by rw [State.reset_campusOf]; exact CounterSet.zero_bounded 8
  lost := Nat.zero_le _
  agent := CounterSet.zero_bounded 7
  merge l := by rw [State.reset_mergeOf]; exact CounterSet.zero_bounded 6

theorem reset_slotsSound : SlotsSound State.reset where
  clean k := by rw [State.reset_slot]; exact ⟨fun _ => ⟨rfl, rfl, rfl, rfl⟩, fun _ => rfl⟩
  count := by
    show 2304 = List.countP _ (Vector.replicate 2304 Slot.reset).toList
    rw [Vector.toList_replicate, List.countP_replicate]; rfl

/-- An UNDEFINED record with the thresholds at their largest values is sound. -/
theorem Ctx.reset_sound : CtxSound Ctx.reset where
  thresholds := by constructor <;> decide
  current := by decide
  issuing := by decide
  silent _ := rfl
  fresh _ := ⟨rfl, rfl, rfl⟩
  undefined _ := ⟨rfl, rfl, rfl⟩
  keyless := by decide

theorem reset_owedMarksWait : OwedMarksWait State.reset where
  bound := Nat.zero_le _
  device h := absurd rfl h
  context c h := by rw [State.reset_ctx] at h; exact absurd rfl h
  restart _ _ _ h := by cases h

/-- Settles O2, an invariant at a time. -/
theorem resetMeetsTheInvariants : Obligations.ResetMeetsTheInvariants :=
  ⟨reset_countersBounded, reset_within, reset_slotsSound, fun c => by rw [State.reset_ctx]; exact Ctx.reset_sound,
    reset_owedMarksWait⟩

/-- With the master enable clear a device flag is set and gives no record and no mark (R187). -/
theorem raiseDevice_unreported (f : DevFlag) {s : State} (hf : hasFlag s.notice.flags f.bit = false)
    (hm : s.notice.master = false) :
    raiseDevice f s = s.setNotice { s.notice with flags := setFlag s.notice.flags f.bit } := by
  unfold raiseDevice
  rw [if_neg (by simp [hf])]
  exact if_neg (by simp [hm])

/-- A device reset restores every block but the Key Store's note and the flag ZEROIZED (assumption 8). -/
theorem deviceReset_blocks (p : Lane) (m z : Bool) (s : State) :
    deviceReset p m z s = { State.reset with
      provLane := p, mkOnce := m, draws := s.draws, pending := s.pending, ks := { KeyStore.reset with zeroizeHeld := z },
      notice := { NoticeUnit.reset with flags := if z then 1#6 else 0#6 } } := by
  cases z with
  | false => rfl
  | true =>
    have clear : hasFlag NoticeUnit.reset.flags DevFlag.zeroized.bit = false := by decide
    have set : setFlag NoticeUnit.reset.flags DevFlag.zeroized.bit = 1#6 := by decide
    unfold deviceReset; simp only [if_true]
    rw [raiseDevice_unreported _ clear rfl, ← set]; rfl

/-- Settles O13, from `deviceReset_blocks` and the rows of the reset tables. -/
theorem deviceResetRestoresTheOtherBlocks : Obligations.DeviceResetRestoresTheOtherBlocks := by
  unfold Obligations.DeviceResetRestoresTheOtherBlocks
  intro p m z s
  refine ⟨_, rfl, ?_⟩
  rw [deviceReset_blocks]
  refine ⟨fun l => ?_, fun e => ?_, rfl, fun l => ?_, fun l => ?_, ⟨rfl, rfl, rfl, rfl, rfl, rfl, rfl, rfl, rfl, rfl⟩,
    ⟨rfl, rfl, rfl, rfl, rfl⟩, ⟨rfl, rfl, rfl, rfl, rfl, rfl, rfl⟩, fun l => ?_, rfl⟩
  · show (State.reset.rxOf l).buffer = [] ∧ (State.reset.rxOf l).headAction = none ∧ _
    rw [State.reset_rxOf]; exact ⟨rfl, rfl, rfl⟩
  · show (State.reset.entry e).valid = false ∧ (State.reset.entry e).lanes = 15#4 ∧ _
    rw [State.reset_entry]; exact ⟨rfl, rfl, rfl, rfl, rfl, rfl, rfl, rfl, rfl⟩
  · show (State.reset.cipherOf l).recs = [] ∧ (State.reset.cipherOf l).request = none ∧ _
    rw [State.reset_cipherOf]; exact ⟨rfl, rfl, rfl⟩
  · show totalOccupancy (State.reset.campusOf l) = 0 ∧ (State.reset.campusOf l).sending = none ∧ _
    rw [State.reset_campusOf]
    exact ⟨rfl, rfl, rfl, rfl, by decide, by decide, rfl⟩
  · show (State.reset.mergeOf l).relay = [] ∧ (State.reset.mergeOf l).control = [] ∧ _
    rw [State.reset_mergeOf]; exact ⟨rfl, rfl, rfl, rfl, rfl, rfl⟩

end Sys2Proof.Machine
end

section
/-! Trunk Receive and the Selector's lookup (O16, O18). -/

namespace Sys2Proof.Machine

variable {s t : State}

/-! ### Replacements that follow one another -/

@[simp] theorem State.setRx_setRx (s : State) (l : Lane) (x y : TrunkRx) : (s.setRx l x).setRx l y = s.setRx l y := by
  simp [State.setRx]

/-- A change of a lane's Trunk Receive that counts. -/
@[simp] theorem countRx_setRx (s : State) (l : Lane) (x : TrunkRx) (c : RxCounter) (k : Nat) :
    countRx l c k (s.setRx l x) = s.setRx l (x.count c k) := by
  simp [countRx]

/-! ### Octets and the fields of a frame (R2) -/

/-- Octets spell a number below 256 to their number. -/
theorem numOf_lt (bs : Bytes) : numOf bs < 256 ^ bs.length := by
  have step : ∀ (bs : Bytes) (a : Nat), bs.foldl (fun a b => a * 256 + b.toNat) a < (a + 1) * 256 ^ bs.length := by
    intro bs
    induction bs with
    | nil => intro a; simp
    | cons b bs ih =>
      intro a
      have hb : b.toNat < 256 := b.isLt
      refine Nat.lt_of_lt_of_le (ih (a * 256 + b.toNat)) ?_
      rw [List.length_cons, Nat.pow_succ', ← Nat.mul_assoc]
      exact Nat.mul_le_mul_right _ (by omega)
  have := step bs 0
  rwa [Nat.zero_add, Nat.one_mul] at this

theorem field_lt (f : Bytes) (off len : Nat) : field f off len < 256 ^ len := by
  refine Nat.lt_of_lt_of_le (numOf_lt _) (Nat.pow_le_pow_right (by omega) ?_)
  rw [slice, List.length_take]; exact Nat.min_le_left _ _

theorem isTagged_iff (f : Bytes) : isTagged f = true ↔ field f 12 2 = 0x8100 := by simp [isTagged]

theorem destOf_toNat (f : Bytes) : (destOf f).toNat = field f 0 6 := by
  have := field_lt f 0 6
  simp only [destOf, BitVec.toNat_ofNat]; exact Nat.mod_eq_of_lt (by omega)

theorem etherTypeOf_toNat (f : Bytes) : (etherTypeOf f).toNat = field f (if field f 12 2 = 0x8100 then 16 else 12) 2 := by
  have := field_lt f (if isTagged f then 16 else 12) 2
  simp only [etherTypeOf, BitVec.toNat_ofNat, isTagged_iff] at this ⊢
  exact Nat.mod_eq_of_lt (by omega)

theorem vlanOf_toNat {f : Bytes} (h : isTagged f = true) : (vlanOf f).toNat = field f 14 2 % 4096 := by
  simp [vlanOf, h]

theorem pcpOf_toNat (f : Bytes) : (pcpOf f).toNat = field f 14 2 / 8192 := by
  have := field_lt f 14 2
  simp only [pcpOf, BitVec.toNat_ofNat]; exact Nat.mod_eq_of_lt (by omega)

/-! ### Reception (R1 to R4) -/

theorem rxLengthOk_iff (rx : RxFrame) : rxLengthOk rx = true ↔ 64 ≤ rx.octets.length ∧ rx.octets.length ≤ 9216 := by
  simp [rxLengthOk]

theorem isControlFrame_iff (s : State) (f : Bytes) :
    isControlFrame s f = true ↔ destOf f = s.agent.address ∧ (etherTypeOf f).toNat = 0x9D4F := by
  simp [isControlFrame, controlType]

theorem trunkArrival_badLength (l : Lane) {rx : RxFrame} (s : State) (h : rxLengthOk rx = false) :
    trunkArrival l rx s = countRx l .lengthErrors 1 s := by
  simp [trunkArrival, h]

theorem trunkArrival_badFcs (l : Lane) {rx : RxFrame} (s : State) (h : rxLengthOk rx = true) (he : rx.ending ≠ .good) :
    trunkArrival l rx s = countRx l .fcsErrors 1 s := by
  unfold trunkArrival; rw [h]
  cases hr : rx.ending with
  | good => exact absurd hr he
  | badFcs => rfl
  | badEnd => rfl

theorem trunkArrival_good (l : Lane) {rx : RxFrame} (s : State) (h : rxLengthOk rx = true) (he : rx.ending = .good) :
    trunkArrival l rx s = acceptFrame l (rxBody rx) s := by
  simp [trunkArrival, h, he]

/-- An accepted frame is counted, and diverted to the agent or offered to the buffer (R3, R4). -/
theorem acceptFrame_data (l : Lane) {f : Bytes} (h : isControlFrame s f = false) :
    acceptFrame l f s =
      admitData l f (s.setRx l (((s.rxOf l).count .acceptedFrames 1).count .acceptedBytes f.length)) := by
  simp [acceptFrame, h, countRx]

theorem acceptFrame_control (l : Lane) {f : Bytes} (h : isControlFrame s f = true) :
    acceptFrame l f s = agentArrival l f (s.setRx l
      ((((s.rxOf l).count .acceptedFrames 1).count .acceptedBytes f.length).count .controlFrames 1)) := by
  simp [acceptFrame, h, countRx]

/-- A data frame joins the buffer where it fits, and is a receive overrun otherwise (R4). -/
theorem admitData_setRx (l : Lane) (f : Bytes) (s : State) (x : TrunkRx) :
    admitData l f (s.setRx l x) =
      if octetCount x.buffer + f.length ≤ rxBufferBytes then s.setRx l { x with buffer := x.buffer ++ [f] }
      else s.setRx l (x.count .receiveOverruns 1) := by
  simp [admitData]

/-- Settles O16. -/
theorem dataFrameReception : Obligations.DataFrameReception := by
  unfold Obligations.DataFrameReception
  intro l rx s
  refine ⟨_, rfl, ?_, ?_, ?_⟩
  · intro h
    have hl : rxLengthOk rx = false := by rw [← Bool.not_eq_true, rxLengthOk_iff]; omega
    rw [trunkArrival_badLength l s hl]; exact settle_settled _ _
  · intro h₁ h₂ he
    rw [trunkArrival_badFcs l s ((rxLengthOk_iff rx).2 ⟨h₁, h₂⟩) he]; exact settle_settled _ _
  · intro h₁ h₂ he hd
    have hc : isControlFrame s (rxBody rx) = false := by
      rw [← Bool.not_eq_true, isControlFrame_iff]; exact hd
    rw [trunkArrival_good l s ((rxLengthOk_iff rx).2 ⟨h₁, h₂⟩) he, acceptFrame_data l hc, admitData_setRx]
    refine ⟨fun hf => ?_, fun hf => ?_⟩
    · split
      · exact settle_settled _ _
      · next h => exact absurd hf h
    · split
      · next h => exact absurd h (Nat.not_le.2 hf)
      · exact settle_settled _ _

/-! ### The match of an entry (R10) -/

theorem tagMatches_iff (m : TagMatch) (f : Bytes) :
    tagMatches m f = true ↔ m = .any ∨ (m = .untagged ∧ field f 12 2 ≠ 0x8100) ∨
      ∃ v, m = .vlan v ∧ field f 12 2 = 0x8100 ∧ field f 14 2 % 4096 = v.toNat := by
  cases m with
  | any => simp [tagMatches]
  | untagged => simp [tagMatches, isTagged]
  | vlan v =>
    simp only [tagMatches, Bool.and_eq_true, beq_iff_eq]
    have e : isTagged f = true → (vlanOf f = v ↔ field f 14 2 % 4096 = v.toNat) := fun h => by
      rw [← vlanOf_toNat h, BitVec.toNat_inj]
    rw [and_congr_right e, isTagged_iff]
    simp

theorem priorityMatches_iff (p : Option (BitVec 3)) (f : Bytes) :
    priorityMatches p f = true ↔
      p = none ∨ ∃ q, p = some q ∧ field f 12 2 = 0x8100 ∧ field f 14 2 / 8192 = q.toNat := by
  cases p with
  | none => simp [priorityMatches]
  | some q =>
    simp only [priorityMatches, Bool.and_eq_true, beq_iff_eq, isTagged_iff, ← pcpOf_toNat, BitVec.toNat_inj]
    simp only [reduceCtorEq, false_or, Option.some.injEq]
    exact ⟨fun ⟨ht, hq⟩ => ⟨q, rfl, ht, hq⟩, fun ⟨_, e, ht, hq⟩ => ⟨ht, hq.trans e.symm⟩⟩

theorem prefixMatches_iff (n : Nat) (f : Bytes) (a : Mac) :
    prefixMatches n (destOf f) a = true ↔ field f 0 6 / 2 ^ (48 - n) = a.toNat / 2 ^ (48 - n) := by
  simp only [prefixMatches, beq_iff_eq, ← BitVec.toNat_inj, BitVec.toNat_ushiftRight, Nat.shiftRight_eq_div_pow, destOf_toNat]

theorem entryMatches_iff (e : SelEntry) (l : Lane) (f : Bytes) :
    entryMatches e l f = true ↔
      e.valid = true ∧ e.lanes.getLsbD l.val = true ∧
      (e.tagMatch = .any ∨ (e.tagMatch = .untagged ∧ field f 12 2 ≠ 0x8100) ∨
        ∃ v, e.tagMatch = .vlan v ∧ field f 12 2 = 0x8100 ∧ field f 14 2 % 4096 = v.toNat) ∧
      (e.priority = none ∨ ∃ p, e.priority = some p ∧ field f 12 2 = 0x8100 ∧ field f 14 2 / 8192 = p.toNat) ∧
      field f 0 6 / 2 ^ (48 - e.prefixLen) = e.address.toNat / 2 ^ (48 - e.prefixLen) ∧
      (e.typeMatch = false ∨ field f (if field f 12 2 = 0x8100 then 16 else 12) 2 = e.etherType.toNat) := by
  rw [← tagMatches_iff, ← priorityMatches_iff, ← prefixMatches_iff, ← etherTypeOf_toNat, BitVec.toNat_inj]
  simp [entryMatches, and_assoc]

/-! ### The lookup (R11, R12) -/

/-- The search passes over the entries that do not match. -/
theorem findMatch_first (l : Lane) (f : Bytes) {es : List SelEntry} {n : Nat} (k : Nat) (hn : n < es.length)
    (hm : entryMatches es[n] l f = true) (hb : ∀ j (hj : j < n), entryMatches (es[j]'(Nat.lt_trans hj hn)) l f = false) :
    findMatch l f es k = some (k + n) := by
  induction es generalizing n k with
  | nil => simp at hn
  | cons e es ih =>
    cases n with
    | zero => simp only [findMatch]; exact if_pos hm
    | succ n =>
      have he : entryMatches e l f = false := hb 0 (Nat.succ_pos n)
      simp only [findMatch, he, Bool.false_eq_true, if_false]
      rw [ih (k + 1) (Nat.lt_of_succ_lt_succ hn) hm fun j hj => hb (j + 1) (Nat.succ_lt_succ hj)]
      congr 1; omega

theorem findMatch_none (l : Lane) (f : Bytes) {es : List SelEntry} (k : Nat) (h : ∀ e ∈ es, entryMatches e l f = false) :
    findMatch l f es k = none := by
  induction es generalizing k with
  | nil => rfl
  | cons e es ih =>
    rw [findMatch, h e List.mem_cons_self]
    exact ih _ fun x hx => h x (List.mem_cons_of_mem _ hx)

/-- The first entry that matches decides the lookup (R11). -/
theorem matchingEntry_first {l : Lane} {f : Bytes} {e : SelIx} (hm : entryMatches (s.entry e) l f = true)
    (hb : ∀ j, j.val < e.val → entryMatches (s.entry j) l f = false) : matchingEntry l f s = some e := by
  have hf : findMatch l f s.selector.entries.toList 0 = some (0 + e.val) := by
    refine findMatch_first l f 0 (by simp) (by simpa [State.entry] using hm) fun j hj => ?_
    simpa [State.entry] using hb ⟨j, Nat.lt_trans hj e.isLt⟩ hj
  simp [matchingEntry, hf, indexOf]

/-- A lookup without a match finds no entry (R12). -/
theorem matchingEntry_none {l : Lane} {f : Bytes} (h : ∀ j, entryMatches (s.entry j) l f = false) :
    matchingEntry l f s = none := by
  have hf : findMatch l f s.selector.entries.toList 0 = none := by
    refine findMatch_none l f 0 fun e he => ?_
    obtain ⟨i, hi, rfl⟩ := List.getElem_of_mem he
    simpa [State.entry] using h ⟨i, by simpa using hi⟩
  simp [matchingEntry, hf]

theorem selectorLookup_eq {l : Lane} {f : Bytes} {rest : List Bytes} (ha : (s.rxOf l).headAction = none)
    (hb : (s.rxOf l).buffer = f :: rest) : selectorLookup l s = laneTake l (lookupHead l f rest s) := by
  simp only [selectorLookup, ha, hb]

/-- A head frame without an action is not taken (R107). -/
theorem laneTake_unlooked {l : Lane} (h : (s.rxOf l).headAction = none) : laneTake l s = s := by
  have hr : takeReady l s = false := by simp [takeReady, h]
  simp [laneTake, hr]

/-- Settles O18: the six conditions by `entryMatches_iff`, and the first match by `matchingEntry_first`. -/
theorem firstMatchingEntryDecides : Obligations.FirstMatchingEntryDecides := by
  unfold Obligations.FirstMatchingEntryDecides
  refine ⟨entryMatches_iff, fun l s f rest e ha hb hm hf => ?_⟩
  have look : exec (.selectorLookup l) s = .next (laneTake l (lookupHead l f rest s)) :=
    congrArg Host.Outcome.next (selectorLookup_eq ha hb)
  have he := matchingEntry_first hm hf
  cases hc : (s.entry e).action with
  | drop =>
    have hl : lookupHead l f rest s = (s.setEntry e { s.entry e with hits := (s.entry e).hits.bump 0 1 }).setRx l
        (({ s.rxOf l with buffer := rest } : TrunkRx).count .selectorDrops 1) := by
      simp only [lookupHead, he, hc, dropHead, countRx_setRx, State.setEntry_rxOf, ← ha]
    simp only [look, hl]
    rw [laneTake_unlooked (by simpa [TrunkRx.count] using ha)]
  | pass cls => simp only [look, lookupHead, he, hc, setHead, State.setEntry_rxOf]; rfl
  | protect c => simp only [look, lookupHead, he, hc, setHead, State.setEntry_rxOf]; rfl

end Sys2Proof.Machine
end

section
/-! The lane's take of the head frame, and the default action (O19, O20). -/

namespace Sys2Proof.Machine

variable {s t : State}

/-! ### The lane's take (R107, R108) -/

theorem takeReady_iff {l : Lane} {f : Bytes} {rest : List Bytes} {a : HeadAction} (ha : (s.rxOf l).headAction = some a)
    (hb : (s.rxOf l).buffer = f :: rest) :
    takeReady l s = true ↔ (s.cipherOf l).recs.length < 32 ∧ (s.cipherOf l).request = none := by
  simp only [takeReady, ha, hb, Bool.and_eq_true, decide_eq_true_eq, Option.isNone_iff_eq_none]
  simp [laneRecords]

/-- A lane with 32 records or a request outstanding takes nothing. -/
theorem laneTake_busy {l : Lane} (h : 32 ≤ (s.cipherOf l).recs.length ∨ (s.cipherOf l).request ≠ none) :
    laneTake l s = s := by
  have hr : takeReady l s = false := by
    rcases h with h | h
    · have : ¬ (s.cipherOf l).recs.length < laneRecords := Nat.not_lt.2 h
      simp [takeReady, this]
    · obtain ⟨q, hq⟩ := Option.ne_none_iff_exists'.1 h
      simp [takeReady, hq]
  simp [laneTake, hr]

/-- A PASS frame within the campus frame limit takes a record. -/
theorem laneTake_pass {l : Lane} {f : Bytes} {rest : List Bytes} {cls : Cls} {e : Option SelIx}
    (ha : (s.rxOf l).headAction = some (.pass cls e)) (hb : (s.rxOf l).buffer = f :: rest)
    (hn : (s.cipherOf l).recs.length < 32) (hq : (s.cipherOf l).request = none)
    (hf : f.length + 4 ≤ (s.campusOf l).frameLimit) :
    laneTake l s = (s.setRx l { s.rxOf l with buffer := rest, headAction := none }).setCipher l
      { s.cipherOf l with recs := (s.cipherOf l).recs ++ [.pass f cls] } := by
  rw [laneTake, if_pos ((takeReady_iff ha hb).2 ⟨hn, hq⟩)]
  simp only [ha, hb, if_neg (Nat.not_lt.2 hf)]

/-- A PASS frame beyond it is reported to Trunk Receive. -/
theorem laneTake_passOversize {l : Lane} {f : Bytes} {rest : List Bytes} {cls : Cls} {e : Option SelIx}
    (ha : (s.rxOf l).headAction = some (.pass cls e)) (hb : (s.rxOf l).buffer = f :: rest)
    (hn : (s.cipherOf l).recs.length < 32) (hq : (s.cipherOf l).request = none)
    (hf : (s.campusOf l).frameLimit < f.length + 4) :
    laneTake l s = (s.setRx l { s.rxOf l with buffer := rest, headAction := none }).setTransit
      { s.transit with laneReports := s.transit.laneReports ++ [(l, .passOversize)] } := by
  rw [laneTake, if_pos ((takeReady_iff ha hb).2 ⟨hn, hq⟩)]
  simp only [ha, hb, if_pos hf]; rfl

/-- A PROTECT frame takes a RESERVED record, and its request carries the campus frame limit just read. -/
theorem laneTake_protect {l : Lane} {f : Bytes} {rest : List Bytes} {c : CtxIx} {e : SelIx}
    (ha : (s.rxOf l).headAction = some (.protect c e)) (hb : (s.rxOf l).buffer = f :: rest)
    (hn : (s.cipherOf l).recs.length < 32) (hq : (s.cipherOf l).request = none) :
    laneTake l s = (s.setRx l { s.rxOf l with buffer := rest, headAction := none }).setCipher l
      { s.cipherOf l with
        recs := (s.cipherOf l).recs ++ [.reserved f e c],
        request := some ⟨c, f.length, isTagged f, vlanOf f, e, (s.campusOf l).frameLimit⟩ } := by
  rw [laneTake, if_pos ((takeReady_iff ha hb).2 ⟨hn, hq⟩)]
  simp only [ha, hb]

/-- Settles O20. -/
theorem laneTakesTheHeadFrame : Obligations.LaneTakesTheHeadFrame := by
  unfold Obligations.LaneTakesTheHeadFrame
  intro l s f rest hb hn hq
  refine ⟨fun cls e ha => ⟨fun hf => ?_, fun hf => ?_⟩, fun c e ha => ?_⟩
  · exact congrArg Host.Outcome.next (laneTake_pass ha hb hn hq hf)
  · exact congrArg Host.Outcome.next (laneTake_passOversize ha hb hn hq hf)
  · exact congrArg Host.Outcome.next (laneTake_protect ha hb hn hq)

/-! ### The default action (R12, R17) -/

theorem defaultActionSet_refused (c : Command) (s : State)
    (h : 1 < field (cmdBody c) 0 1 ∨ (field (cmdBody c) 0 1 = 0 ∧ field (cmdBody c) 1 1 ≠ 0) ∨
      (field (cmdBody c) 0 1 = 1 ∧ 3 < field (cmdBody c) 1 1)) : defaultActionSet c s = .refuse .badValue := by
  simp only [defaultActionSet, refuseIf]
  exact if_pos (by simpa [or_assoc] using h)

theorem defaultActionSet_done (c : Command) (s : State) {a : DefaultAction}
    (h : field (cmdBody c) 0 1 = 0 ∧ field (cmdBody c) 1 1 = 0 ∧ a = .drop ∨
      ∃ k : Cls, field (cmdBody c) 0 1 = 1 ∧ field (cmdBody c) 1 1 = k.val ∧ a = .pass k) :
    defaultActionSet c s = .done .ok (octetsOf 1 (field (cmdBody c) 0 1) ++ octetsOf 1 (field (cmdBody c) 1 1))
      (s.setSelector { s.selector with default := a }) := by
  rcases h with ⟨hk, hc, rfl⟩ | ⟨k, hk, hc, rfl⟩
  · simp only [defaultActionSet, hk, hc]; rfl
  · have hk3 : k.val ≤ 3 := Nat.le_of_lt_succ k.isLt
    simp [defaultActionSet, hk, hc, refuseIf, defaultOf, defaultOctets, Nat.not_lt.2 hk3]

/-- A lookup without a match that passes the head frame counts it and leaves it its action (R12). -/
theorem lookupHead_defaultPass {l : Lane} {f : Bytes} {rest : List Bytes} {cls : Cls} (hm : matchingEntry l f s = none)
    (hd : s.selector.default = .pass cls) :
    lookupHead l f rest s =
      s.setRx l { (s.rxOf l).count .defaultPasses 1 with headAction := some (.pass cls none) } := by
  simp [lookupHead, hm, hd, setHead, countRx]

/-- Settles O19: the command by its two outcomes, the lookup by what the lane's take then does. -/
theorem defaultActionIsReplacedAndUsed : Obligations.DefaultActionIsReplacedAndUsed := by
  unfold Obligations.DefaultActionIsReplacedAndUsed
  refine ⟨fun s c hc => ⟨fun h => ?_, fun a h => ?_⟩, fun l s f rest ha hb hm => ?_⟩
  · exact ⟨_, rfl, takeCommand_refuse hc (defaultActionSet_refused c s h)⟩
  · exact ⟨_, rfl, takeCommand_done hc (defaultActionSet_done c s h)⟩
  · have he := matchingEntry_none hm
    have look : exec (.selectorLookup l) s = .next (laneTake l (lookupHead l f rest s)) :=
      congrArg Host.Outcome.next (selectorLookup_eq ha hb)
    cases hd : s.selector.default with
    | drop =>
      have hl : lookupHead l f rest s =
          s.setRx l (({ s.rxOf l with buffer := rest } : TrunkRx).count .defaultDrops 1) := by
        simp only [lookupHead, he, hd, dropHead, countRx_setRx, ← ha]
      simp only [look, hl]
      rw [laneTake_unlooked (by simpa [TrunkRx.count] using ha)]
    | pass cls =>
      have head : ({ (s.rxOf l).count .defaultPasses 1 with buffer := rest, headAction := none } : TrunkRx) =
          { (s.rxOf l).count .defaultPasses 1 with buffer := rest } := by simp only [TrunkRx.count, ha]
      simp only [look, lookupHead_defaultPass he hd]
      generalize hu : s.setRx l { (s.rxOf l).count .defaultPasses 1 with headAction := some (.pass cls none) } = u
      have hua : (u.rxOf l).headAction = some (.pass cls none) := by rw [← hu, State.setRx_rxOf_same]
      have hub : (u.rxOf l).buffer = f :: rest := by rw [← hu, State.setRx_rxOf_same]; exact hb
      have hus : u.setRx l { u.rxOf l with buffer := rest, headAction := none } =
          s.setRx l { (s.rxOf l).count .defaultPasses 1 with buffer := rest } := by
        rw [← hu, State.setRx_setRx, State.setRx_rxOf_same, ← head]
      have huc : u.cipherOf l = s.cipherOf l := by rw [← hu]; rfl
      have huq : u.campusOf l = s.campusOf l := by rw [← hu]; rfl
      have hut : u.transit = s.transit := by rw [← hu]; rfl
      refine ⟨fun h => ?_, fun hn hq hf => ?_, fun hn hq hf => ?_⟩
      · rw [laneTake_busy (huc ▸ h)]
      · rw [laneTake_pass hua hub (huc ▸ hn) (huc ▸ hq) (huq ▸ hf), hus, huc]
      · rw [laneTake_passOversize hua hub (huc ▸ hn) (huc ▸ hq) (huq ▸ hf), hus, hut]

end Sys2Proof.Machine
end

section
/-! The Control Agent's arrival checks, its intake, and the begin at an IDLE agent (O17). -/

namespace Sys2Proof.Machine

variable {s t : State}

/-! ### Device flags through the end of an event -/

theorem hasFlag_setFlag {n i : Nat} (set : BitVec n) (h : i < n) : hasFlag (setFlag set i) i = true := by
  simp [hasFlag, setFlag, h]

/-- A flag raised is set (R186). -/
theorem raiseDevice_flag (f : DevFlag) (s : State) : hasFlag (raiseDevice f s).notice.flags f.bit = true := by
  have hs : hasFlag (setFlag s.notice.flags f.bit) f.bit = true := hasFlag_setFlag _ (by cases f <;> decide)
  unfold raiseDevice
  split
  · assumption
  · simp only
    split
    · split <;> exact hs
    · exact hs

theorem takeOwed_flags (s : State) : (takeOwed s).notice.flags = s.notice.flags := by
  unfold takeOwed; repeat' split
  all_goals rfl

/-- A departure leaves the device flags. -/
theorem depart_flags (s : State) : (depart s).notice.flags = s.notice.flags := by
  unfold depart; split
  · split
    · exact takeOwed_flags _
    · rfl
  · rfl

theorem departNew_flags (s₀ s : State) : (departNew s₀ s).notice.flags = s.notice.flags := by
  unfold departNew; split
  · exact depart_flags _
  · rfl

/-! ### An agent that begins nothing (R153) -/

/-- The agent is BUSY, or the head of intake stays and finds no room for its response. -/
def HeadWaits (s : State) : Prop :=
  s.agent.progress.isSome = true ∨ ∃ g rest, s.agent.intake = g :: rest ∧
    (g.auth = true ∨ s.ks.mgmtKey = none) ∧ 16 ≤ placesUsed (s.mergeOf g.lane)

/-- Frames that join intake behind the head leave it waiting. -/
theorem HeadWaits.mono (h : HeadWaits s) (hp : t.agent.progress = s.agent.progress)
    (hi : ∃ fs, t.agent.intake = s.agent.intake ++ fs) (hk : t.ks.mgmtKey = s.ks.mgmtKey) (hm : t.merge = s.merge) :
    HeadWaits t := by
  obtain ⟨fs, hi⟩ := hi
  rcases h with h | ⟨g, rest, hg, ha, hr⟩
  · exact .inl (by rw [hp]; exact h)
  · refine .inr ⟨g, rest ++ fs, by rw [hi, hg]; rfl, by rw [hk]; exact ha, ?_⟩
    simpa only [State.mergeOf, hm] using hr

theorem hasRoom_iff (m : ReturnMerge) : hasRoom m = true ↔ placesUsed m < 16 := decide_eq_true_iff

/-- A head that need not be discarded stays (R153). -/
theorem purge_head {g : IntakeFrame} {rest : List IntakeFrame} (hg : s.agent.intake = g :: rest)
    (ha : g.auth = true ∨ s.ks.mgmtKey = none) : purge s = s := by
  have hk : (!g.auth && s.ks.mgmtKey.isSome) = false := by rcases ha with ha | ha <;> simp [ha]
  unfold purge
  split
  · rw [hg, purgeList, hk]; rfl
  · rfl

/-- Where the agent begins nothing, the end of an event is a departure at most. -/
theorem settle_waits (h : HeadWaits s) (s₀ : State) : settle s₀ s = departNew s₀ s := by
  have hp : purge s = s := by
    rcases h with h | ⟨g, rest, hg, ha, _⟩
    · have hn : s.agent.progress.isNone = false := by cases hc : s.agent.progress <;> simp_all
      simp [purge, hn]
    · exact purge_head hg ha
  have hr : agentReady s = false := by
    rcases h with h | ⟨g, rest, hg, _, hr⟩
    · cases hc : s.agent.progress <;> simp_all [agentReady]
    · have : hasRoom (s.mergeOf g.lane) = false := by
        rw [← Bool.not_eq_true, hasRoom_iff]; omega
      simp [agentReady, hg, this]
  rw [settle, endLoop, hp]
  exact if_neg (by simp [hr])

theorem settle_quiet (h : HeadWaits s ∨ s.agent.intake = []) (s₀ : State) : settle s₀ s = departNew s₀ s := by
  rcases h with h | h
  · exact settle_waits h s₀
  · exact settle_empty s₀ s h

/-! ### The checks (R149 to R152) -/

theorem agentArrival_malformed (l : Lane) {f : Bytes} (s : State) (h : ctlFormOk f = false) :
    agentArrival l f s = countAgent .malformed s := by
  simp [agentArrival, h]

theorem agentArrival_wrongLane {l : Lane} {f : Bytes} (h : ctlFormOk f = true) (hk : s.ks.mgmtKey = none)
    (hl : l ≠ s.provLane) : agentArrival l f s = countAgent .wrongLane s := by
  simp [agentArrival, h, hk, hl]

theorem agentArrival_badTag (l : Lane) {f : Bytes} {k : Key} (h : ctlFormOk f = true) (hk : s.ks.mgmtKey = some k)
    (ht : cmac k (ctlCovered f) ≠ ctlIntegrity f) :
    agentArrival l f s = raiseDevice .authFail (countAgent .authFailures s) := by
  simp [agentArrival, h, hk, ht]

/-- The frame passes its checks (R149, R150). -/
def PassesChecks (l : Lane) (f : Bytes) (s : State) : Prop :=
  s.ks.mgmtKey = none ∧ l = s.provLane ∨ ∃ k, s.ks.mgmtKey = some k ∧ cmac k (ctlCovered f) = ctlIntegrity f

theorem agentArrival_passed {l : Lane} {f : Bytes} (h : ctlFormOk f = true) (hp : PassesChecks l f s) :
    agentArrival l f s = enterIntake l f s.ks.mgmtKey.isSome s := by
  rcases hp with ⟨hk, hl⟩ | ⟨k, hk, ht⟩
  · simp [agentArrival, h, hk, hl]
  · simp [agentArrival, h, hk, ht]

/-- A frame that has passed is unauthenticated in the provisioning state alone, so it is not discarded at the head. -/
theorem passed_stays (s : State) : s.ks.mgmtKey.isSome = true ∨ s.ks.mgmtKey = none := by
  cases s.ks.mgmtKey <;> simp

theorem countAgent_settled (c : AgentCounter) (s : State) : Settled s (countAgent c s) := settled_agent _ _ _ _ _

theorem agentArrival_settled (l : Lane) (f : Bytes) (s : State) : Settled s (agentArrival l f s) := by
  have enter : ∀ auth, Settled s (enterIntake l f auth s) := fun auth => by
    unfold enterIntake; split
    · exact settled_agent _ _ _ _ _
    · exact (countAgent_settled _ _).trans (raiseDevice_settled _ _)
  unfold agentArrival
  repeat' split
  · exact countAgent_settled _ _
  · exact enter _
  · exact countAgent_settled _ _
  · exact enter _
  · exact (countAgent_settled _ _).trans (raiseDevice_settled _ _)

/-! ### A frame that is counted and refused -/

/-- Where the agent begins nothing, a frame that is only counted leaves the agent with its count. -/
theorem settle_counted (h : HeadWaits s ∨ s.agent.intake = []) (s₀ : State) (c : AgentCounter) :
    (settle s₀ (countAgent c s)).agent = s.agent.count c 1 := by
  have hq : HeadWaits (countAgent c s) ∨ (countAgent c s).agent.intake = [] :=
    h.imp (fun h => h.mono rfl ⟨[], (List.append_nil _).symm⟩ rfl rfl) id
  rw [settle_quiet hq, departNew_agent]; rfl

/-- Where the agent begins nothing, a frame that is counted and raises a flag has the rise handled (R151, R186). -/
theorem settle_raised (h : HeadWaits s ∨ s.agent.intake = []) {s₀ : State} (hr : s.notice.route = s₀.notice.route)
    (hq : s.notice.queue = s₀.notice.queue) (hm : s.merge = s₀.merge) (c : AgentCounter) (f : DevFlag) :
    let t := settle s₀ (raiseDevice f (countAgent c s))
    t.agent = s.agent.count c 1 ∧ hasFlag t.notice.flags f.bit = true ∧
      DeviceRiseHandled f (s.setAgent (s.agent.count c 1)) t := by
  have ha : (raiseDevice f (countAgent c s)).agent = s.agent.count c 1 := raiseDevice_agent _ _
  have hk : (raiseDevice f (countAgent c s)).ks = s.ks := (raiseDevice_settled _ _).ks
  have hw : HeadWaits (raiseDevice f (countAgent c s)) ∨ (raiseDevice f (countAgent c s)).agent.intake = [] :=
    h.imp (fun h => h.mono (by rw [ha]; rfl) ⟨[], by rw [ha]; simp [Agent.count]⟩ (by rw [hk]) (raiseDevice_merge _ _))
      fun h => by rw [ha]; exact h
  simp only [settle_quiet hw]
  refine ⟨(departNew_agent _ _).trans ha, ?_, departNew_device f hr hq hm⟩
  rw [departNew_flags]; exact raiseDevice_flag _ _

/-! ### The begin of the only frame of intake (R153, R154) -/

/-- With one frame in intake the begin leaves intake empty; the frame is the command in progress with its place reserved, or
has been refused and counted executed. -/
theorem beginHead_only {g : IntakeFrame} (hg : s.agent.intake = [g]) :
    (beginHead s).agent.intake = [] ∧
      match commonChecks s (ctlCode g.frame) (ctlBodyLen g.frame) with
      | some _ => (beginHead s).agent.progress = none ∧
          (beginHead s).agent.counters = s.agent.counters.bump AgentCounter.executed.ix 1
      | none => (∃ p n, (beginHead s).agent.progress = some ⟨g.lane, g.frame, n, .begun p⟩) ∧
          ((beginHead s).mergeOf g.lane).reserved = true ∧ (beginHead s).agent.counters = s.agent.counters := by
  unfold beginHead
  rw [hg]
  simp only
  cases commonChecks s (ctlCode g.frame) (ctlBodyLen g.frame) with
  | some st => exact ⟨rfl, rfl, rfl⟩
  | none =>
    simp only
    split
    · exact ⟨rfl, ⟨_, _, rfl⟩, by rw [State.setAgent_mergeOf, State.setMerge_mergeOf_same], rfl⟩
    · exact ⟨rfl, ⟨_, _, rfl⟩, by rw [State.setAgent_mergeOf, State.setMerge_mergeOf_same], rfl⟩

/-- An IDLE agent whose one frame of intake finds room begins it, and a record departs at most (R153). -/
theorem settle_begins {g : IntakeFrame} {s₀ : State} (hg : s.agent.intake = [g]) (hn : s.agent.progress = none)
    (ha : g.auth = true ∨ s.ks.mgmtKey = none) (hr : placesUsed (s.mergeOf g.lane) < 16)
    (h₀ : noticeReady s₀ = noticeReady s) : settle s₀ s = departNew s₀ (beginHead s) := by
  have ready : agentReady s = true := by
    have hroom : hasRoom (s.mergeOf g.lane) = true := (hasRoom_iff _).2 hr
    have hauth : (g.auth || s.ks.mgmtKey.isNone) = true := by rcases ha with ha | ha <;> simp [ha]
    simp [agentReady, hn, hg, hroom, hauth]
  have noNotice : noticeNew s₀ s = false := by simp [noticeNew, h₀]
  have empty := (beginHead_only hg).1
  have once : endLoop 2 s₀ s = endLoop 1 s₀ (beginHead s) := by
    rw [endLoop, purge_head hg ha]
    simp only [ready, noNotice, if_true, Bool.false_and, Bool.false_eq_true, if_false]
  rw [settle, hg]
  show endLoop 2 s₀ s = _
  rw [once, ← settle_empty s₀ _ empty, settle, empty]; rfl

/-- An IDENTIFY without a body passes checks 1 to 4. -/
theorem commonChecks_identify (s : State) : commonChecks s 0x01 0 = none := by
  simp [commonChecks, isCommandCode, requiredLen, commandTable]

/-- What an IDLE agent with an empty intake does with a frame that has passed its checks (R152 to R154). -/
theorem settle_onlyFrame {g : IntakeFrame} {s₀ : State} (hg : s.agent.intake = [g]) (hn : s.agent.progress = none)
    (ha : g.auth = true ∨ s.ks.mgmtKey = none) (h₀ : noticeReady s₀ = noticeReady s) :
    let t := settle s₀ s
    (16 ≤ placesUsed (s.mergeOf g.lane) → t.agent = s.agent) ∧
    (placesUsed (s.mergeOf g.lane) < 16 → t.agent.intake = [] ∧
      (∀ d, t.agent.progress = some d → d.lane = g.lane ∧ d.frame = g.frame ∧ (t.mergeOf g.lane).reserved = true ∧
        t.agent.counters = s.agent.counters) ∧
      (t.agent.progress = none → t.agent.counters = s.agent.counters.bump AgentCounter.executed.ix 1) ∧
      (ctlCode g.frame = 0x01 → ctlBodyLen g.frame = 0 → ∃ d, begunCommand 0x01 t = some d)) := by
  refine ⟨fun hr => ?_, fun hr => ?_⟩
  · rw [settle_waits (.inr ⟨g, [], hg, ha, hr⟩), departNew_agent]
  · obtain ⟨hi, hb⟩ := beginHead_only hg
    simp only [settle_begins hg hn ha hr h₀, departNew_agent, (departNew_merge _ _ _).2]
    refine ⟨hi, ?_⟩
    cases hc : commonChecks s (ctlCode g.frame) (ctlBodyLen g.frame) with
    | some st =>
      simp only [hc] at hb
      obtain ⟨hp, hx⟩ := hb
      refine ⟨fun d hd => ?_, fun _ => hx, fun h₁ h₂ => ?_⟩
      · rw [hp] at hd; cases hd
      · rw [h₁, h₂, commonChecks_identify] at hc; cases hc
    | none =>
      simp only [hc] at hb
      obtain ⟨⟨p, n, hp⟩, hv, hx⟩ := hb
      refine ⟨fun d hd => ?_, fun hd => ?_, fun h₁ _ => ?_⟩
      · rw [hp] at hd; cases hd; exact ⟨rfl, rfl, hv, hx⟩
      · rw [hp] at hd; cases hd
      · exact ⟨_, by simp only [begunCommand, departNew_agent, hp]; exact if_pos h₁⟩

/-- Settles O17: the checks one by one, then the intake, then the begin (`settle_onlyFrame`). -/
theorem controlFrameIntake : Obligations.ControlFrameIntake := by
  unfold Obligations.ControlFrameIntake
  intro l rx s f h₁ h₂ he hd ht u waits
  have hx : exec (.trunkFrameTaken l rx) s = .next (settle s (agentArrival l f u)) := by
    have hc : isControlFrame s (rxBody rx) = true := (isControlFrame_iff s _).2 ⟨hd, ht⟩
    show Host.Outcome.next (settle s (trunkArrival l rx s)) = _
    rw [trunkArrival_good l s ((rxLengthOk_iff rx).2 ⟨h₁, h₂⟩) he, acceptFrame_control l hc]; rfl
  have quiet : waits ∨ s.agent.intake = [] → HeadWaits u ∨ u.agent.intake = [] := id
  refine ⟨_, hx, (agentArrival_settled l f u).trans (settle_settled _ _), fun h => ⟨?_, ?_, ?_⟩, fun hf hp => ⟨?_, ?_, ?_⟩⟩
  · intro hf
    rw [agentArrival_malformed l u hf]; exact settle_counted (quiet h) s _
  · intro hf hk hl
    rw [agentArrival_wrongLane (s := u) hf hk hl]; exact settle_counted (quiet h) s _
  · intro k hf hk hm
    rw [agentArrival_badTag (s := u) l hf hk hm]; exact settle_raised (s₀ := s) (quiet h) rfl rfl rfl _ _
  all_goals rw [agentArrival_passed (s := u) hf hp]
  · intro h hi
    have hin : enterIntake l f u.ks.mgmtKey.isSome u = u.setAgent
        (({ s.agent with intake := s.agent.intake ++ [⟨l, f, s.ks.mgmtKey.isSome⟩] } : Agent).count .taken 1) :=
      if_pos hi
    have hw : HeadWaits (u.setAgent
        (({ s.agent with intake := s.agent.intake ++ [⟨l, f, s.ks.mgmtKey.isSome⟩] } : Agent).count .taken 1)) :=
      HeadWaits.mono (s := u) h rfl ⟨_, rfl⟩ rfl rfl
    rw [hin, settle_waits hw, departNew_agent]; rfl
  · intro h hi
    have hin : enterIntake l f u.ks.mgmtKey.isSome u = raiseDevice .controlDrop (countAgent .overflows u) :=
      if_neg (Nat.not_lt.2 hi)
    rw [hin]; exact settle_raised (s₀ := s) (quiet (.inl h)) rfl rfl rfl _ _
  · intro hn hi a
    have hin : enterIntake l f u.ks.mgmtKey.isSome u = u.setAgent a := by
      have hlt : u.agent.intake.length < intakePlaces := by rw [show u.agent.intake = [] from hi]; decide
      rw [enterIntake, if_pos hlt]
      show u.setAgent (({ s.agent with intake := s.agent.intake ++ [⟨l, f, s.ks.mgmtKey.isSome⟩] } : Agent).count .taken 1) = _
      rw [hi]; rfl
    have h₀ : noticeReady s = noticeReady (u.setAgent a) := (noticeReady_congr rfl Iff.rfl rfl).symm
    obtain ⟨hfull, hroom⟩ := settle_onlyFrame (s := u.setAgent a) (s₀ := s) (g := ⟨l, f, s.ks.mgmtKey.isSome⟩) rfl hn
      (passed_stays s) h₀
    rw [hin]
    exact ⟨congrArg Host.Outcome.next (settle_congr h₀ _).symm, hfull, hroom⟩

end Sys2Proof.Machine
end

section
/-! Drop reports (O21). -/

namespace Sys2Proof.Machine

variable {s t : State}

/-- A counter below its largest value counts without saturating, so no flag is raised with it (R36). -/
theorem Ctx.count_below {r : Ctx} {n : CtxCounter} (h : look r.counters.vals n.ix < counterMax) :
    r.count n 1 = { r with counters := r.counters.bump n.ix 1 } := by
  have hs : saturates (look r.counters.vals n.ix) 1 = false := by simp only [saturates, decide_eq_false_iff_not]; omega
  simp [Ctx.count, hs]

/-- A flag other than the one set is as it was. -/
theorem hasFlag_setFlag_ne {n i j : Nat} (set : BitVec n) (h : j ≠ i) : hasFlag (setFlag set i) j = hasFlag set j := by
  simp [hasFlag, setFlag, h.symm]

/-- The order of R38 runs from the highest bit down. -/
theorem CtxFlag.all_bit (f : CtxFlag) : CtxFlag.all[7 - f.bit]? = some f := by cases f <;> rfl

theorem CtxFlag.bit_injective {f g : CtxFlag} (h : f.bit = g.bit) : f = g :=
  Option.some.inj ((CtxFlag.all_bit f).symm.trans (h ▸ CtxFlag.all_bit g))

/-- Where one flag alone is newly set, it is the only rise, and none where it was set before or is not enabled (R187). -/
theorem enabledRises_single {c : CtxIx} {before : BitVec 8} {u : State} {f : CtxFlag}
    (h : (u.ctx c).flags = setFlag before f.bit) :
    enabledRises c before u =
      if hasFlag before f.bit = false ∧ (u.notice.master = true ∧ hasFlag (u.ctx c).enables f.bit = true) then [f]
      else [] := by
  have one : ∀ g : CtxFlag, (!hasFlag before g.bit && hasFlag (u.ctx c).flags g.bit &&
      (u.notice.master && hasFlag (u.ctx c).enables g.bit)) =
      (decide (g = f) && decide (hasFlag before f.bit = false ∧
        (u.notice.master = true ∧ hasFlag (u.ctx c).enables f.bit = true))) := fun g => by
    rw [h]
    by_cases e : g = f
    · subst e
      rw [hasFlag_setFlag _ (by cases g <;> decide)]
      simp [Bool.decide_and]
    · rw [hasFlag_setFlag_ne _ (fun x => e (CtxFlag.bit_injective x))]
      simp [e]
  have hf : CtxFlag.all.filter (fun g => decide (g = f)) = [f] := by cases f <;> rfl
  unfold enabledRises
  simp only [one]
  split
  · next hc => simpa [hc] using hf
  · next hc => simp [hc]

/-- With no enabled rise an event's end changes nothing. -/
theorem RisesHandled.none {c : CtxIx} {before : BitVec 8} {u : State} (h : RisesHandled c before u t)
    (he : enabledRises c before u = []) : t = u := by
  unfold RisesHandled at h
  simp only [he, takeRises_nil] at h
  obtain ⟨busy, empty⟩ := h
  by_cases hq : u.notice.queue = []
  · have hd : Host.Outcome.next (depart u) = .next t := empty hq
    rw [depart_notReady (noticeReady_empty hq)] at hd
    exact (Host.Outcome.next.inj hd).symm
  · exact busy hq

/-- With one enabled rise an event's end gives its record, the departure of the only one, or the owed mark (R187, R190). -/
theorem RisesHandled.one {c : CtxIx} {before : BitVec 8} {u : State} {f : CtxFlag} (h : RisesHandled c before u t)
    (he : enabledRises c before u = [f]) :
    let v := queueRecord (makeRecord (.context c f) .direct u) u
    (u.notice.queue ≠ [] → u.notice.queue.length < 64 → t = v) ∧
      (u.notice.queue = [] → exec .noticeDeparture v = .next t) ∧
      (64 ≤ u.notice.queue.length → t = u.setCtx c { u.ctx c with owed := setFlag (u.ctx c).owed f.bit }) := by
  unfold RisesHandled at h
  simp only [he] at h
  obtain ⟨busy, empty⟩ := h
  refine ⟨fun hq hl => ?_, fun hq => ?_, fun hl => ?_⟩
  · rw [busy hq, takeRises_room hl, takeRises_nil]
  · have hl : u.notice.queue.length < 64 := by rw [hq]; decide
    rw [← empty hq, takeRises_room hl, takeRises_nil]
  · have hq : u.notice.queue ≠ [] := fun e => by simp [e] at hl
    rw [busy hq, takeRises_full hl, takeRises_nil]

theorem laneDropReport_eq {n : Nat} {l : Lane} {d : LaneDrop} (h : s.transit.laneReports[n]? = some (l, d)) :
    laneDropReport n s =
      (s.setTransit { s.transit with laneReports := s.transit.laneReports.eraseIdx n }).setRx l
        ((s.rxOf l).count d.counter 1) := by
  simp only [laneDropReport, h]; rfl

theorem flushDropReport_eq {n : Nat} {m : FlushReport} (h : s.transit.flushReports[n]? = some m) :
    flushDropReport n s =
      let s₁ := s.setTransit { s.transit with flushReports := s.transit.flushReports.eraseIdx n }
      if (s.ctx m.ctx).generation = m.gen then
        departNew s (reportRises m.ctx s (s₁.setCtx m.ctx ((s.ctx m.ctx).count .flushDrops 1)))
      else s₁ := by
  simp only [flushDropReport, h]

theorem queueDropReport_eq {n : Nat} {c : CtxIx} {g : Gen} (h : s.transit.queueReports[n]? = some (c, g)) :
    queueDropReport n s =
      let s₁ := s.setTransit { s.transit with queueReports := s.transit.queueReports.eraseIdx n }
      if (s.ctx c).generation = g then
        departNew s (reportRises c s (s₁.setCtx c (((s.ctx c).count .queueDrops 1).raise .queueDrop)))
      else s₁ := by
  simp only [queueDropReport, h]

/-- An event that changes a context record and messages in transit alone has its rises handled at its end. -/
theorem departNew_handled (c : CtxIx) (s : State) (x : Transit) (r : Ctx) :
    let u := (s.setTransit x).setCtx c r
    Settled u (departNew s (reportRises c s u)) ∧
      RisesHandled c (s.ctx c).flags u (departNew s (reportRises c s u)) :=
  ⟨(reportRises_settled _ _ _).trans (departNew_settled _ _), departNew_rises c rfl rfl rfl⟩

/-- A rise of QUEUE_DROP alone: what its report leaves of `u` where the counter does not saturate (R187, R190). -/
theorem queueDrop_handled {c : CtxIx} {x : Transit}
    (hb : look (s.ctx c).counters.vals CtxCounter.queueDrops.ix < counterMax)
    (h : RisesHandled c (s.ctx c).flags
      ((s.setTransit x).setCtx c (((s.ctx c).count .queueDrops 1).raise .queueDrop)) t) :
    let r := s.ctx c
    let r' := (r.count .queueDrops 1).raise .queueDrop
    let u := (s.setTransit x).setCtx c r'
    let enabled := s.notice.master = true ∧ hasFlag r.enables CtxFlag.queueDrop.bit = true
    let m : NoticeRecord :=
      ⟨.context c .queueDrop, r.generation, .direct, r.state, r.phase, r.nextPn, r.blocks, r.age, s.ks.freeSlots⟩
    let v := u.setNotice { s.notice with queue := s.notice.queue ++ [m] }
    (¬enabled ∨ hasFlag r.flags CtxFlag.queueDrop.bit = true → t = u) ∧
    (enabled → hasFlag r.flags CtxFlag.queueDrop.bit = false →
      (s.notice.queue ≠ [] → s.notice.queue.length < 64 → t = v) ∧
      (s.notice.queue = [] → exec .noticeDeparture v = .next t) ∧
      (64 ≤ s.notice.queue.length → t = u.setCtx c { r' with owed := r.owed ||| 0x02#8 })) := by
  intro r r' u enabled m v
  have hr' : r' = ({ r with counters := r.counters.bump CtxCounter.queueDrops.ix 1 } : Ctx).raise .queueDrop :=
    congrArg (fun x => Ctx.raise x _) (Ctx.count_below hb)
  have hu : u.ctx c = r' := State.setCtx_ctx_same _ _ _
  have hflags : (u.ctx c).flags = setFlag r.flags CtxFlag.queueDrop.bit := by rw [hu, hr']; rfl
  have henables : (u.ctx c).enables = r.enables := by rw [hu, hr']; rfl
  have howed : (u.ctx c).owed = r.owed := by rw [hu, hr']; rfl
  have hrises := enabledRises_single hflags
  rw [henables] at hrises
  refine ⟨fun hn => ?_, fun hen hf => ?_⟩
  · refine h.none (hrises.trans (if_neg fun ⟨hf, hen⟩ => ?_))
    rcases hn with hn | hn
    · exact hn hen
    · rw [hf] at hn; cases hn
  · obtain ⟨room, only, full⟩ := h.one (hrises.trans (if_pos ⟨hf, hen⟩))
    have hm : makeRecord (.context c .queueDrop) .direct u = m := by
      show (⟨_, (u.ctx c).generation, _, (u.ctx c).state, (u.ctx c).phase, (u.ctx c).nextPn, (u.ctx c).blocks,
        (u.ctx c).age, _⟩ : NoticeRecord) = m
      rw [hu, hr']; rfl
    have hv : queueRecord (makeRecord (.context c .queueDrop) .direct u) u = v := by rw [hm]; rfl
    refine ⟨fun hq hl => (room hq hl).trans hv, fun hq => ?_, fun hl => ?_⟩
    · rw [← hv]; exact only hq
    · rw [full hl, howed, hu]; rfl

/-- Settles O21, a kind of report at a time. -/
theorem dropReportsAreCounted : Obligations.DropReportsAreCounted := by
  unfold Obligations.DropReportsAreCounted
  refine ⟨fun n l d s h => ?_, fun n m s h => ⟨_, rfl, fun hg => ?_, fun hg => ?_⟩,
    fun n c g s h => ⟨_, rfl, fun hg => ?_, fun hg => ?_⟩⟩
  · show Host.Outcome.next (laneDropReport n s) = _
    rw [laneDropReport_eq h]
    cases d <;> rfl
  · rw [flushDropReport_eq h]
    simp only [if_pos hg]
    exact departNew_handled _ _ _ _
  · rw [flushDropReport_eq h]; exact if_neg hg
  · rw [queueDropReport_eq h]
    simp only [if_pos hg]
    obtain ⟨hs, hr⟩ := departNew_handled c s { s.transit with queueReports := s.transit.queueReports.eraseIdx n }
      (((s.ctx c).count .queueDrops 1).raise .queueDrop)
    exact ⟨hs, hr, fun hb => queueDrop_handled hb hr⟩
  · rw [queueDropReport_eq h]; exact if_neg hg

end Sys2Proof.Machine
end

section
/-! SELECTOR_WRITE, SELECTOR_READ and SELECTOR_INVALIDATE (O50, O51). -/

namespace Sys2Proof.Machine

variable {s t : State}

/-! ### Octets of a response -/

@[simp] theorem octetsOf_length (n v : Nat) : (octetsOf n v).length = n := by
  induction n with
  | zero => rfl
  | succ n ih => simp [octetsOf, ih]

@[simp] theorem boolOctet_length (b : Bool) : (boolOctet b).length = 1 := rfl

/-- The rows of a table in their order. -/
theorem toList_eq_ofFn {α : Type} {n : Nat} (t : Vector α n) : t.toList = List.ofFn (look t) := by
  apply List.ext_getElem <;> simp [look]

theorem counterSetOctets_one (cs : CounterSet 1) :
    counterSetOctets cs = octetsOf 6 (look cs.vals 0) ++ boolOctet cs.sat := by
  simp [counterSetOctets, CounterSet.octets, toList_eq_ofFn, counterOctets]

/-! ### Indexes and checks of a body (R165) -/

theorem indexOf_val {n : Nat} (i : Fin n) : indexOf n i.val = some i := by simp [indexOf]

theorem indexOf_none {n v : Nat} (h : n ≤ v) : indexOf n v = none := by simp [indexOf, Nat.not_lt.2 h]

/-- Two checks in a row with one status are one check. -/
theorem refuseIf_refuseIf (a b : Bool) (st : Status) (k : Taken) :
    refuseIf a st (refuseIf b st k) = refuseIf (a || b) st k := by
  cases a <;> rfl

theorem refuseIf_pos {b : Bool} (h : b = true) (st : Status) (k : Taken) : refuseIf b st k = .refuse st := by
  rw [h]; rfl

theorem refuseIf_neg {b : Bool} (h : b = false) (st : Status) (k : Taken) : refuseIf b st k = k := by
  rw [h]; rfl

/-! ### Entries -/

@[simp] theorem State.setEntry_self (s : State) (e : SelIx) : s.setEntry e (s.entry e) = s := by
  simp [State.setEntry, State.setSelector, State.entry]

theorem entryOctets_length (i : SelIx) (e : SelEntry) : (entryOctets i e).length = 20 := by
  have ha : (actionOctets e.action).length = 3 := by cases e.action <;> simp [actionOctets]
  simp [entryOctets, macOctets, ha]

/-- A value of a SELECTOR_WRITE body, beside the indexes, lies outside its column of R177. -/
def badEntryValue (b : Bytes) : Bool :=
  decide (1 < field b 2 1) || ((field b 3 1 == 0 || decide (15 < field b 3 1)) ||
    ((decide (4094 < field b 4 2) && field b 4 2 != 65535) || ((decide (7 < field b 6 1) && field b 6 1 != 255) ||
      (decide (1 < field b 14 1) || badArgument (field b 17 1) (field b 18 2)))))

theorem badEntryValue_iff (b : Bytes) :
    badEntryValue b = true ↔
      1 < field b 2 1 ∨ field b 3 1 = 0 ∨ 15 < field b 3 1 ∨ (4094 < field b 4 2 ∧ field b 4 2 ≠ 65535) ∨
        (7 < field b 6 1 ∧ field b 6 1 ≠ 255) ∨ 1 < field b 14 1 ∨
        (2 < field b 17 1 ∨ (field b 17 1 = 0 ∧ field b 18 2 ≠ 0) ∨ (field b 17 1 = 1 ∧ 3 < field b 18 2)) := by
  simp only [badEntryValue, badArgument, Bool.or_eq_true, Bool.and_eq_true, decide_eq_true_eq, beq_iff_eq, bne_iff_ne]
  rw [or_assoc (a := field b 3 1 = 0), or_comm (b := 2 < field b 17 1)]

/-- SELECTOR_WRITE checks its indexes, then its other values, and writes the entry that its body describes (R14, R177). -/
theorem selectorWrite_eq (c : Command) (s : State) {i : SelIx} (hi : field (cmdBody c) 0 2 = i.val) :
    selectorWrite c s =
      refuseIf (field (cmdBody c) 17 1 == 2 && decide (1023 < field (cmdBody c) 18 2)) .badIndex
        (refuseIf (badEntryValue (cmdBody c)) .badValue
          (.done (okOr (decide (48 < field (cmdBody c) 13 1))) (entryOctets i (entryOf (cmdBody c)))
            (s.setEntry i (entryOf (cmdBody c))))) := by
  simp only [selectorWrite, hi, indexOf_val, refuseIf_refuseIf, badEntryValue]

theorem selectorWrite_badIndex (c : Command) (s : State)
    (h : 511 < field (cmdBody c) 0 2 ∨ (field (cmdBody c) 17 1 = 2 ∧ 1023 < field (cmdBody c) 18 2)) :
    selectorWrite c s = .refuse .badIndex := by
  by_cases hi : field (cmdBody c) 0 2 < 512
  · have hp : field (cmdBody c) 17 1 = 2 ∧ 1023 < field (cmdBody c) 18 2 := h.resolve_left (by omega)
    rw [selectorWrite_eq c s (i := ⟨_, hi⟩) rfl]
    exact refuseIf_pos (by simpa using hp) _ _
  · simp only [selectorWrite, indexOf_none (Nat.not_lt.1 hi)]

theorem selectorWrite_badValue (c : Command) (s : State)
    (h : ¬(511 < field (cmdBody c) 0 2 ∨ (field (cmdBody c) 17 1 = 2 ∧ 1023 < field (cmdBody c) 18 2)))
    (hv : badEntryValue (cmdBody c) = true) : selectorWrite c s = .refuse .badValue := by
  obtain ⟨hi, hp⟩ := not_or.1 h
  rw [selectorWrite_eq c s (i := ⟨_, Nat.lt_succ_of_le (Nat.not_lt.1 hi)⟩) rfl, refuseIf_neg, refuseIf_pos hv]
  rw [← Bool.not_eq_true]; simpa using hp

/-- A SELECTOR_WRITE with the entry index in range writes its entry or is refused. -/
theorem selectorWrite_cases (c : Command) (s : State) {i : SelIx} (hi : field (cmdBody c) 0 2 = i.val) :
    (∃ st, selectorWrite c s = .refuse st) ∨
      ∃ st, selectorWrite c s = .done st (entryOctets i (entryOf (cmdBody c))) (s.setEntry i (entryOf (cmdBody c))) := by
  rw [selectorWrite_eq c s hi]
  unfold refuseIf
  split
  · exact .inl ⟨_, rfl⟩
  · split
    · exact .inl ⟨_, rfl⟩
    · exact .inr ⟨_, rfl⟩

/-- The body of a SELECTOR_WRITE spells an entry at an index (R177), the length of its compared address bits clamped to 48. -/
structure BodySpells (b : Bytes) (i : SelIx) (e : SelEntry) : Prop where
  index : field b 0 2 = i.val
  valid : field b 2 1 = if e.valid then 1 else 0
  lanes : field b 3 1 = e.lanes.toNat
  someLane : e.lanes ≠ 0#4
  tagMatch : e.tagMatch = .any ∧ field b 4 2 = 0 ∨ e.tagMatch = .untagged ∧ field b 4 2 = 65535 ∨
    ∃ v : BitVec 12, e.tagMatch = .vlan v ∧ 1 ≤ v.toNat ∧ v.toNat ≤ 4094 ∧ field b 4 2 = v.toNat
  priority : e.priority = none ∧ field b 6 1 = 255 ∨ ∃ p : BitVec 3, e.priority = some p ∧ field b 6 1 = p.toNat
  address : field b 7 6 = e.address.toNat
  prefixLen : e.prefixLen = min 48 (field b 13 1)
  typeMatch : field b 14 1 = if e.typeMatch then 1 else 0
  etherType : field b 15 2 = e.etherType.toNat
  action : e.action = .drop ∧ field b 17 1 = 0 ∧ field b 18 2 = 0 ∨
    (∃ k : Cls, e.action = .pass k ∧ field b 17 1 = 1 ∧ field b 18 2 = k.val) ∨
    ∃ x : CtxIx, e.action = .protect x ∧ field b 17 1 = 2 ∧ field b 18 2 = x.val
  hits : e.hits = CounterSet.zero 1

/-- A flag octet that spells a yes/no field reads back. -/
theorem flagOctet_eq {n : Nat} {v : Bool} (h : n = if v then 1 else 0) : (n == 1) = v ∧ n ≤ 1 := by
  subst h; cases v <;> simp

theorem BodySpells.tagMatch_eq {b : Bytes} {i : SelIx} {e : SelEntry} (h : BodySpells b i e) :
    tagMatchOf (field b 4 2) = e.tagMatch ∧ (field b 4 2 ≤ 4094 ∨ field b 4 2 = 65535) := by
  rcases h.tagMatch with ⟨he, hb⟩ | ⟨he, hb⟩ | ⟨v, he, h1, h2, hb⟩
  · rw [he, hb]; exact ⟨rfl, by omega⟩
  · rw [he, hb]; exact ⟨rfl, by omega⟩
  · rw [he, hb]
    refine ⟨?_, .inl h2⟩
    rw [tagMatchOf, if_neg (by omega), if_neg (by omega), BitVec.ofNat_toNat, BitVec.setWidth_eq]

theorem BodySpells.priority_eq {b : Bytes} {i : SelIx} {e : SelEntry} (h : BodySpells b i e) :
    (if field b 6 1 = 255 then none else some (BitVec.ofNat 3 (field b 6 1))) = e.priority ∧
      (field b 6 1 ≤ 7 ∨ field b 6 1 = 255) := by
  rcases h.priority with ⟨he, hb⟩ | ⟨p, he, hb⟩
  · rw [he, hb]; exact ⟨rfl, .inr rfl⟩
  · have hp := p.isLt
    rw [he, hb, if_neg (by omega), BitVec.ofNat_toNat, BitVec.setWidth_eq]
    exact ⟨rfl, .inl (by omega)⟩

theorem BodySpells.action_eq {b : Bytes} {i : SelIx} {e : SelEntry} (h : BodySpells b i e) :
    actionOf (field b 17 1) (field b 18 2) = e.action ∧ badArgument (field b 17 1) (field b 18 2) = false ∧
      ¬(field b 17 1 = 2 ∧ 1023 < field b 18 2) := by
  rcases h.action with ⟨he, hk, ha⟩ | ⟨k, he, hk, ha⟩ | ⟨x, he, hk, ha⟩
  · rw [he, hk, ha]; exact ⟨rfl, rfl, by omega⟩
  · have := k.isLt
    have hf : Fin.ofNat 4 k.val = k := Fin.ext (Nat.mod_eq_of_lt k.isLt)
    rw [he, hk, ha]
    exact ⟨congrArg SelAction.pass hf, by simp [badArgument]; omega, by omega⟩
  · have := x.isLt
    have hf : Fin.ofNat 1024 x.val = x := Fin.ext (Nat.mod_eq_of_lt x.isLt)
    rw [he, hk, ha]
    exact ⟨congrArg SelAction.protect hf, rfl, by omega⟩

theorem BodySpells.entryOf_eq {b : Bytes} {i : SelIx} {e : SelEntry} (h : BodySpells b i e) : entryOf b = e := by
  have hl : BitVec.ofNat 4 (field b 3 1) = e.lanes := by rw [h.lanes, BitVec.ofNat_toNat, BitVec.setWidth_eq]
  have ha : BitVec.ofNat 48 (field b 7 6) = e.address := by rw [h.address, BitVec.ofNat_toNat, BitVec.setWidth_eq]
  have ht : BitVec.ofNat 16 (field b 15 2) = e.etherType := by rw [h.etherType, BitVec.ofNat_toNat, BitVec.setWidth_eq]
  simp only [entryOf, (flagOctet_eq h.valid).1, (flagOctet_eq h.typeMatch).1, hl, ha, ht, h.tagMatch_eq.1,
    h.priority_eq.1, h.action_eq.1, ← h.prefixLen, ← h.hits]

theorem BodySpells.accepted {b : Bytes} {i : SelIx} {e : SelEntry} (h : BodySpells b i e) : badEntryValue b = false := by
  have hl : field b 3 1 ≠ 0 := fun x => h.someLane (BitVec.eq_of_toNat_eq (h.lanes ▸ x))
  have h15 := e.lanes.isLt
  have hv := (flagOctet_eq h.valid).2
  have ht := (flagOctet_eq h.typeMatch).2
  have htag := h.tagMatch_eq.2
  have hpri := h.priority_eq.2
  have hlanes := h.lanes
  simp only [badEntryValue, h.action_eq.2.1, Bool.or_eq_false_iff, Bool.and_eq_false_iff, decide_eq_false_iff_not,
    beq_eq_false_iff_ne, bne_eq_false_iff_eq, eq_self, and_true]
  omega

theorem selectorWrite_spelled {c : Command} {i : SelIx} {e : SelEntry} (h : BodySpells (cmdBody c) i e) (s : State) :
    selectorWrite c s =
      .done (if 48 < field (cmdBody c) 13 1 then .okClamped else .ok) (entryOctets i e) (s.setEntry i e) := by
  have hp : (field (cmdBody c) 17 1 == 2 && decide (1023 < field (cmdBody c) 18 2)) = false := by
    rw [← Bool.not_eq_true]; simpa using h.action_eq.2.2
  rw [selectorWrite_eq c s h.index, refuseIf_neg hp, refuseIf_neg h.accepted, h.entryOf_eq]
  simp [okOr]

/-! ### SELECTOR_READ and SELECTOR_INVALIDATE (R15, R16) -/

theorem selectorRead_refused (c : Command) (s : State) {i : SelIx} (hi : field (cmdBody c) 0 2 = i.val)
    (h : 1 < field (cmdBody c) 2 1) : selectorRead c s = .refuse .badValue := by
  simp only [selectorRead, hi, indexOf_val]
  exact refuseIf_pos (decide_eq_true h) _ _

/-- With CLEAR the counter and its mark are zeroed, and otherwise nothing changes (R16). -/
theorem selectorRead_done (c : Command) (s : State) {i : SelIx} (hi : field (cmdBody c) 0 2 = i.val)
    (h : field (cmdBody c) 2 1 ≤ 1) :
    selectorRead c s =
      .done .ok (entryOctets i (s.entry i) ++ counterSetOctets (s.entry i).hits)
        (if field (cmdBody c) 2 1 = 1 then s.setEntry i { s.entry i with hits := CounterSet.zero 1 } else s) := by
  simp only [selectorRead, hi, indexOf_val]
  rw [refuseIf_neg (decide_eq_false (Nat.not_lt.2 h))]
  by_cases h1 : field (cmdBody c) 2 1 = 1
  · simp only [h1, beq_self_eq_true, clearedIf, if_true]
  · have hb : (field (cmdBody c) 2 1 == 1) = false := by simpa using h1
    simp only [hb, clearedIf, Bool.false_eq_true, if_false, if_neg h1]
    rw [show ({ s.entry i with hits := (s.entry i).hits } : SelEntry) = s.entry i from rfl, State.setEntry_self]

theorem selectorInvalidate_done (c : Command) (s : State) {i : SelIx} (hi : field (cmdBody c) 0 2 = i.val) :
    selectorInvalidate c s =
      .done .ok (octetsOf 2 i.val ++ boolOctet (s.entry i).valid) (s.setEntry i { s.entry i with valid := false }) := by
  simp only [selectorInvalidate, hi, indexOf_val]

/-- Settles O50. -/
theorem selectorWriteAndRead : Obligations.SelectorWriteAndRead := by
  unfold Obligations.SelectorWriteAndRead
  intro layout
  have hlayout : ∀ i e, entryOctets i e = layout i e := fun i e => by
    have ha : actionOctets e.action = (match e.action with
        | .drop => [0#8, 0#8, 0#8]
        | .pass k => [1#8] ++ octetsOf 2 k.val
        | .protect x => [2#8] ++ octetsOf 2 x.val) := by cases e.action <;> rfl
    unfold entryOctets
    rw [ha]; rfl
  refine ⟨fun i e => ?_, fun s c i e hc => ?_, fun s c i hc hi => ?_, fun s c hc => ?_, fun s c hc h => ?_,
    fun s c hc h => ?_⟩
  · rw [← hlayout]; exact entryOctets_length i e
  · intro b index valid lanes someLane tagMatch priority address len typeMatch etherType action hits
    rw [← hlayout]
    exact ⟨_, rfl, takeCommand_done hc (selectorWrite_spelled ⟨index, valid, lanes, someLane, tagMatch, priority,
      address, len, typeMatch, etherType, action, hits⟩ s)⟩
  · refine ⟨_, rfl, fun h => takeCommand_refuse hc (selectorRead_refused c s hi h), fun h => ?_⟩
    have hd := selectorRead_done c s hi h
    rw [counterSetOctets_one, hlayout, ← List.append_assoc] at hd
    exact takeCommand_done hc hd
  · intro b _ _ _
    exact ⟨_, rfl, fun h => takeCommand_refuse hc (selectorWrite_badIndex c s h),
      fun h hv => takeCommand_refuse hc (selectorWrite_badValue c s h ((badEntryValue_iff b).2 hv))⟩
  · exact ⟨_, rfl, takeCommand_refuse hc (by simp only [selectorInvalidate, indexOf_none h])⟩
  · exact ⟨_, rfl, takeCommand_refuse hc (by simp only [selectorRead, indexOf_none h])⟩

/-- Settles O51. -/
theorem selectorInvalidateKeepsTheRest : Obligations.SelectorInvalidateKeepsTheRest := by
  unfold Obligations.SelectorInvalidateKeepsTheRest
  refine ⟨fun s c i hc hi => ?_, fun s c i hc hi hv => ?_, fun s c i hc hi h => ?_, fun s t c i hc hi hv ht hne => ?_⟩
  · exact ⟨_, rfl, takeCommand_done hc (selectorInvalidate_done c s hi)⟩
  · have same : s.setEntry i { s.entry i with valid := false } = s := by rw [← hv]; exact State.setEntry_self s i
    have ha := takeCommand_done hc (selectorInvalidate_done c s hi)
    rw [same] at ha
    exact ⟨_, rfl, ha.settled.selector⟩
  · have hd := selectorRead_done c s hi (by omega)
    rw [counterSetOctets_one, ← List.append_assoc, if_neg (by omega)] at hd
    have ha := takeCommand_done hc hd
    exact ⟨_, rfl, ha.settled.selector, ha⟩
  · obtain rfl : takeCommand 0x20 selectorWrite s = t := Host.Outcome.next.inj ht
    rcases selectorWrite_cases c s hi with ⟨st, hr⟩ | ⟨st, hd⟩
    · exact absurd (takeCommand_refuse hc hr).settled.selector hne
    · have hs := (takeCommand_done hc hd).settled.selector
      have he : (takeCommand 0x20 selectorWrite s).entry i = entryOf (cmdBody c) := by
        simp only [State.entry, hs]; exact State.setEntry_entry_same s i _
      rw [he]
      exact ⟨by simp only [entryOf, hv]; rfl, rfl⟩

end Sys2Proof.Machine
end

section
/-! LANE_COUNTERS_READ and LANE_SNAPSHOT (O48). -/

namespace Sys2Proof.Machine

variable {s t : State}

/-! ### The parts of the body (R172) -/

theorem CounterSet.octets_length {n : Nat} (cs : CounterSet n) : cs.octets.length = 6 * n := by
  have sum : ∀ l : List Nat, ((l.map counterOctets).flatten).length = 6 * l.length := by
    intro l
    induction l with
    | nil => rfl
    | cons a l ih => simp only [List.map_cons, List.flatten_cons, List.length_append, ih, counterOctets, octetsOf_length,
        List.length_cons]; omega
  have h := sum cs.vals.toList
  rwa [Vector.length_toList] at h

theorem rxPart_length (r : TrunkRx) : (rxPart r).length = 71 := by
  simp [rxPart, counterSetOctets, CounterSet.octets_length]

theorem cipherPart_length (c : CipherLane) : (cipherPart c).length = 8 := by
  simp [cipherPart, counterSetOctets, CounterSet.octets_length]

theorem mergePart_length (m : ReturnMerge) : (mergePart m).length = 44 := by
  simp [mergePart, counterSetOctets, CounterSet.octets_length]

/-- The Campus Queue's part with its four queues and its four limits written out. -/
theorem campusPart_eq (q : CampusQueue) :
    campusPart q = counterSetOctets q.counters ++ octetsOf 4 (classOccupancy q 0) ++ octetsOf 4 (classOccupancy q 1) ++
      octetsOf 4 (classOccupancy q 2) ++ octetsOf 4 (classOccupancy q 3) ++ octetsOf 4 (totalOccupancy q) ++
      octetsOf 2 (look q.queues 0).length ++ octetsOf 2 (look q.queues 1).length ++ octetsOf 2 (look q.queues 2).length ++
      octetsOf 2 (look q.queues 3).length ++ boolOctet q.sending.isSome ++ octetsOf 4 (look q.limits 0) ++
      octetsOf 4 (look q.limits 1) ++ octetsOf 4 (look q.limits 2) ++ octetsOf 4 (look q.limits 3) ++
      octetsOf 2 q.frameLimit ++ boolOctet q.linkUp := by
  have four : ∀ {α : Type} (v : Vector α 4) (f : α → Bytes),
      (v.toList.map f).flatten = f (look v 0) ++ f (look v 1) ++ f (look v 2) ++ f (look v 3) := fun v f => by
    rw [toList_eq_ofFn]; simp [List.ofFn_succ]
  simp only [campusPart, four, List.append_assoc]

theorem campusPart_length (q : CampusQueue) : (campusPart q).length = 97 := by
  simp [campusPart_eq, counterSetOctets, CounterSet.octets_length]

/-! ### The command (R172) -/

theorem laneCountersRead_badIndex (c : Command) (s : State) (h : 4 ≤ field (cmdBody c) 0 1) :
    laneCountersRead c s = .refuse .badIndex := by
  simp only [laneCountersRead, indexOf_none h]

theorem laneCountersRead_badValue (c : Command) (s : State) (h : field (cmdBody c) 0 1 < 4)
    (hf : 1 < field (cmdBody c) 1 1) : laneCountersRead c s = .refuse .badValue := by
  have hi : indexOf 4 (field (cmdBody c) 0 1) = some ⟨_, h⟩ := indexOf_val ⟨_, h⟩
  simp only [laneCountersRead, hi]
  exact refuseIf_pos (decide_eq_true hf) _ _

theorem laneCountersRead_waits (c : Command) (s : State) {l : Lane} (h : field (cmdBody c) 0 1 = l.val)
    (hf : field (cmdBody c) 1 1 ≤ 1) :
    laneCountersRead c s = .waits (.gatherLane l (field (cmdBody c) 1 1 == 1) none none none none) s := by
  simp only [laneCountersRead, h, indexOf_val]
  exact refuseIf_neg (decide_eq_false (Nat.not_lt.2 hf)) _ _

/-! ### The end of an event that begins and answers nothing -/

/-- While a command is in progress the end of an event that leaves the Notice Unit and the Return Merges changes nothing. -/
theorem settle_unchanged {s₀ : State} (hp : s.agent.progress.isSome = true) (hr : s.notice.route = s₀.notice.route)
    (hq : s.notice.queue = s₀.notice.queue) (hm : s.merge = s₀.merge) : settle s₀ s = s := by
  have e : noticeReady s = noticeReady s₀ := noticeReady_congr hr (by rw [hq]) hm
  rw [settle_waits (.inl hp), departNew, noticeNew, e]
  simp

/-- A command that goes on without an effect of its own only takes its stage (R155). -/
theorem takeCommand_goesOn {code : Nat} {c : Command} {act : Command → State → Taken} {stage : Stage}
    (h : begunCommand code s = some c) (ha : act c s = .waits stage s) :
    takeCommand code act s = setStage c stage s := by
  rw [takeCommand_begun h, ha]
  exact settle_unchanged rfl rfl rfl rfl

/-! ### A snapshot (R172) -/

/-- The block whose snapshot is taken has its counters and mark zeroed. -/
def clearBlock (b : LaneBlock) (l : Lane) (s : State) : State :=
  match b with
  | .trunkReceive => s.setRx l { s.rxOf l with counters := CounterSet.zero 11 }
  | .cipherLane => s.setCipher l { s.cipherOf l with flushDrops := CounterSet.zero 1 }
  | .campusQueue => s.setCampus l { s.campusOf l with counters := CounterSet.zero 8 }
  | .returnMerge => s.setMerge l { s.mergeOf l with counters := CounterSet.zero 6 }

theorem clearBlock_agent (b : LaneBlock) (l : Lane) (s : State) : (clearBlock b l s).agent = s.agent := by
  cases b <;> rfl

/-- A snapshot fills its block's part and zeroes the block's counters with CLEAR. -/
theorem laneSnapshot_eq {c : Command} {l : Lane} {clear : Bool} {r p q m : Option Bytes} (b : LaneBlock)
    (hc : s.agent.progress = some c) (hs : c.stage = .gatherLane l clear r p q m) (hr : b = .trunkReceive → r = none)
    (hp : b = .cipherLane → p = none) (hq : b = .campusQueue → q = none) (hm : b = .returnMerge → m = none) :
    laneSnapshot b s = laneGathered s c l clear
      (if b = .trunkReceive then some (rxPart (s.rxOf l)) else r)
      (if b = .cipherLane then some (cipherPart (s.cipherOf l)) else p)
      (if b = .campusQueue then some (campusPart (s.campusOf l)) else q)
      (if b = .returnMerge then some (mergePart (s.mergeOf l)) else m)
      (if clear then clearBlock b l s else s) := by
  have kept : ∀ {α : Type} (f : Bool → α) (x y : α), f true = x → f false = y → f clear = if clear then x else y :=
    fun f x y hx hy => by cases clear <;> simp [*]
  cases b with
  | trunkReceive =>
    obtain rfl := hr rfl
    simp only [laneSnapshot, hc, hs, if_true, reduceCtorEq, if_false]
    refine congrArg _ (kept (fun b => s.setRx l { s.rxOf l with counters := clearedIf b (s.rxOf l).counters }) _ _ rfl ?_)
    exact congrArg (fun x => ({ s with rx := x } : State)) (put_look _ _)
  | cipherLane =>
    obtain rfl := hp rfl
    simp only [laneSnapshot, hc, hs, if_true, reduceCtorEq, if_false]
    refine congrArg _ (kept (fun b => s.setCipher l
      { s.cipherOf l with flushDrops := clearedIf b (s.cipherOf l).flushDrops }) _ _ rfl ?_)
    exact congrArg (fun x => ({ s with cipher := x } : State)) (put_look _ _)
  | campusQueue =>
    obtain rfl := hq rfl
    simp only [laneSnapshot, hc, hs, if_true, reduceCtorEq, if_false]
    refine congrArg _ (kept (fun b => s.setCampus l
      { s.campusOf l with counters := clearedIf b (s.campusOf l).counters }) _ _ rfl ?_)
    exact congrArg (fun x => ({ s with campus := x } : State)) (put_look _ _)
  | returnMerge =>
    obtain rfl := hm rfl
    simp only [laneSnapshot, hc, hs, if_true, reduceCtorEq, if_false]
    refine congrArg _ (kept (fun b => s.setMerge l
      { s.mergeOf l with counters := clearedIf b (s.mergeOf l).counters }) _ _ rfl ?_)
    exact congrArg (fun x => ({ s with merge := x } : State)) (put_look _ _)

/-- The command goes on while a part is missing. -/
theorem laneGathered_missing (s₀ : State) (c : Command) (l : Lane) (clear : Bool) {r p q m : Option Bytes} (s : State)
    (h : r = none ∨ p = none ∨ q = none ∨ m = none) :
    laneGathered s₀ c l clear r p q m s = setStage c (.gatherLane l clear r p q m) s := by
  unfold laneGathered
  split
  · simp at h
  · rfl

/-- The Return Merge that has been cleared counts the response alone, where that finds the link DOWN (R164). -/
theorem cleared_merge_answered {c : Command} {l : Lane} {st : Status} {body : Bytes}
    (h : Answered (clearBlock .returnMerge l s) c st body t) :
    ((s.mergeOf l).linkUp = true → (t.mergeOf l).counters = CounterSet.zero 6) ∧
      (s.agent.intake = [] → (s.mergeOf l).linkUp = false → (t.mergeOf l).counters =
        if l = c.lane then (CounterSet.zero 6).bump MergeCounter.controlDiscards.ix 1 else CounterSet.zero 6) := by
  have hm : (clearBlock .returnMerge l s).mergeOf l = { s.mergeOf l with counters := CounterSet.zero 6 } :=
    State.setMerge_mergeOf_same _ _ _
  refine ⟨fun hl => ?_, fun hi hl => ?_⟩
  · rw [h.settled.counters l (by rw [hm]; exact hl), hm]
  · rw [h.discarded hi l, hm]
    simp only [hl, and_true]

/-- Settles O48. -/
theorem laneCountersAreReadAndCleared : Obligations.LaneCountersAreReadAndCleared := by
  unfold Obligations.LaneCountersAreReadAndCleared
  refine ⟨fun s c hc => ⟨fun h => ?_, fun h hf => ?_⟩, fun s c l hc h hf => ?_, ?_⟩
  · exact ⟨_, rfl, takeCommand_refuse hc (laneCountersRead_badIndex c s h)⟩
  · exact ⟨_, rfl, takeCommand_refuse hc (laneCountersRead_badValue c s h hf)⟩
  · have e := takeCommand_goesOn hc (laneCountersRead_waits c s h hf)
    refine ⟨_, rfl, ?_, congrArg State.agent e⟩
    rw [e]; exact settled_agent _ _ _ _ _
  · intro s c l clear r p q m b hc hs hr hp hq hm x y z g rx cipher campus merge r' p' q' m' u
    have hrx : rxPart x = rx := rfl
    have hcipher : cipherPart y = cipher := by rw [cipherPart, counterSetOctets_one]
    have hcampus : campusPart z = campus := campusPart_eq z
    have hmerge : mergePart g = merge := by rw [mergePart, controlFrames_eq]; rfl
    have hu : (if clear then clearBlock b l s else s) = u := rfl
    have ht := laneSnapshot_eq b hc hs hr hp hq hm
    rw [hrx, hcipher, hcampus, hmerge, hu] at ht
    have missing : r' = none ∨ p' = none ∨ q' = none ∨ m' = none →
        laneSnapshot b s = u.setAgent { s.agent with progress := some { c with stage := .gatherLane l clear r' p' q' m' } } :=
      fun h => by
        have ha : u.agent = s.agent := by
          rw [← hu]; split
          · exact clearBlock_agent b l s
          · rfl
        rw [ht, laneGathered_missing s c l clear u h, setStage, ha]
    have all : ∀ r₁ p₁ q₁ m₁, r' = some r₁ → p' = some p₁ → q' = some q₁ → m' = some m₁ →
        Answered u c .ok (octetsOf 1 l.val ++ r₁ ++ p₁ ++ q₁ ++ m₁) (laneSnapshot b s) := fun r₁ p₁ q₁ m₁ h₁ h₂ h₃ h₄ => by
      rw [ht, show (if b = .trunkReceive then some rx else r) = some r₁ from h₁,
        show (if b = .cipherLane then some cipher else p) = some p₁ from h₂,
        show (if b = .campusQueue then some campus else q) = some q₁ from h₃,
        show (if b = .returnMerge then some merge else m) = some m₁ from h₄]
      exact answer_answered _ _ _ _ _
    refine ⟨hrx ▸ rxPart_length x, hcipher ▸ cipherPart_length y, hcampus ▸ campusPart_length z,
      hmerge ▸ mergePart_length g, _, rfl, fun hb hcl h => ?_, fun hb hcl hi hl r₁ p₁ q₁ h₁ h₂ h₃ => ?_, all, missing⟩
    · subst hb hcl
      by_cases hn : r' = none ∨ p' = none ∨ q' = none
      · rw [missing (hn.imp_right fun h => h.imp_right .inl)]
        exact congrArg ReturnMerge.counters (State.setMerge_mergeOf_same _ _ _)
      · simp only [not_or, Option.ne_none_iff_exists'] at hn
        obtain ⟨⟨r₁, h₁⟩, ⟨p₁, h₂⟩, q₁, h₃⟩ := hn
        have hl : (s.mergeOf l).linkUp = true := h.resolve_right (by simp [h₁, h₂, h₃])
        exact (cleared_merge_answered (all r₁ p₁ q₁ merge h₁ h₂ h₃ rfl)).1 hl
    · subst hb hcl
      exact (cleared_merge_answered (all r₁ p₁ q₁ merge h₁ h₂ h₃ rfl)).2 hi hl

end Sys2Proof.Machine
end

section
/-! DATAPATH_RESTART, steps 1 to 3 (O59). -/

namespace Sys2Proof.Machine

variable {s t : State}

theorem restartAt_eq {c : Command} {step : RestartStep} {free : Bool} (hp : s.agent.progress = some c)
    (hs : c.stage = .restart step free) : restartAt s = some (c, step, free) := by
  simp only [restartAt, hp, hs]

/-! ### Step 1 (R19) -/

theorem Selector.reset_entries (e : SelIx) : look Selector.reset.entries e = SelEntry.reset := by simp [Selector.reset]

theorem restartSelector_eq {c : Command} {free : Bool} (hp : s.agent.progress = some c)
    (hs : c.stage = .restart .selector free) :
    restartSelector s = setStage c (.restart (.flush [0, 1, 2, 3]) free) (s.setSelector Selector.reset) := by
  simp only [restartSelector, restartAt_eq hp hs]

/-! ### Step 2: two flushes differ in the mark of their reports alone (R116, R119) -/

/-- The state with other flush-drop reports in transit. -/
def withReports (x : List FlushReport) (s : State) : State := s.setTransit { s.transit with flushReports := x }

/-- The flush-drop reports of a list of records: one for each PROTECT record, in list order. -/
def flushMarks (restart : Bool) (rs : List Rec) : List FlushReport :=
  rs.filterMap (fun r => match r with | .protect p => some ⟨p.ctx, p.gen, restart⟩ | _ => none)

theorem slotRequest_withReports (k : SlotIx) (c : CtxIx) (g : Gen) (f : Slot → Slot) (x : List FlushReport) (s : State) :
    slotRequest k c g f (withReports x s) = withReports x (slotRequest k c g f s) := by
  show (if slotAccepts (s.slot k) c g = true then _ else _) = _
  unfold slotRequest; split <;> rfl

/-- The discard of a PROTECT record adds its report; the mark reaches nothing else. -/
theorem discardProtect_withReports (l : Lane) (k : SlotIx) (c : CtxIx) (g : Gen) (a b : Bool) (x : List FlushReport)
    (s : State) :
    discardProtect l k c g a (withReports x s) = withReports (x ++ [⟨c, g, a⟩]) (discardProtect l k c g b s) := by
  unfold discardProtect releaseInFlight
  rw [slotRequest_withReports]; rfl

theorem flushRecords_withReports (l : Lane) (a b : Bool) (rs : List Rec) (x : List FlushReport) (s : State) :
    flushRecords l a rs (withReports x s) = withReports (x ++ flushMarks a rs) (flushRecords l b rs s) := by
  induction rs generalizing x s with
  | nil => rw [show flushMarks a [] = [] from rfl, List.append_nil]; rfl
  | cons r rs ih =>
    unfold flushRecords
    cases r with
    | pass f cls => exact ih x (countFlushDrop l s)
    | protect p =>
      show flushRecords l a rs (discardProtect l p.slot p.ctx p.gen a (withReports x s)) = _
      rw [discardProtect_withReports l _ _ _ a b, ih, List.append_assoc]; rfl
    | reserved f e c => exact ih x s
    | flushed => exact ih x s

/-- A take reads no flush-drop report and leaves them. -/
theorem laneTake_withReports (l : Lane) (x : List FlushReport) (s : State) :
    laneTake l (withReports x s) = withReports x (laneTake l s) := by
  have hr : takeReady l (withReports x s) = takeReady l s := rfl
  have hx : (withReports x s).rxOf l = s.rxOf l := rfl
  unfold laneTake
  rw [hr, hx]
  split
  · split
    · next a _ _ _ _ =>
      cases a with
      | pass cls e =>
        show (if (s.campusOf l).frameLimit < _ then _ else _) = withReports x (if _ then _ else _)
        split <;> rfl
      | protect c e => rfl
    · rfl
  · rfl

/-- A flush after its discards: FLUSHED records stand for the records that stay, and the lane takes a next frame. -/
def endFlush (l : Lane) (rs : List Rec) (s : State) : State :=
  laneTake l (s.setCipher l { s.cipherOf l with recs := (rs.filter flushLeaves).map (fun _ => Rec.flushed) })

theorem flushLane_eq (l : Lane) (restart : Bool) (s : State) :
    flushLane l restart s = endFlush l (s.cipherOf l).recs (flushRecords l restart (s.cipherOf l).recs s) := rfl

theorem endFlush_withReports (l : Lane) (rs : List Rec) (x : List FlushReport) (s : State) :
    endFlush l rs (withReports x s) = withReports x (endFlush l rs s) :=
  laneTake_withReports l x
    (s.setCipher l { s.cipherOf l with recs := (rs.filter flushLeaves).map (fun _ => Rec.flushed) })

/-- The flush of a restart differs from that of a zeroize in the mark of its reports alone. -/
theorem flushLane_marked (l : Lane) (s : State) :
    flushLane l true s =
      withReports (s.transit.flushReports ++ flushMarks true (s.cipherOf l).recs) (flushLane l false s) := by
  have h := flushRecords_withReports l true false (s.cipherOf l).recs s.transit.flushReports s
  rw [show withReports s.transit.flushReports s = s from rfl] at h
  rw [flushLane_eq, flushLane_eq, h, endFlush_withReports]

theorem restartFlush_eq {c : Command} {left : List Lane} {free : Bool} {l : Lane} (hp : s.agent.progress = some c)
    (hs : c.stage = .restart (.flush left) free) (hl : l ∈ left) :
    restartFlush l s = some (c, left.filter (fun k => k != l), free) := by
  simp only [restartFlush, hp, hs]
  exact if_pos (List.contains_iff_mem.2 hl)

/-- The flush of the last lane left issues the third step. -/
theorem flush_next (left : List Lane) (l : Lane) :
    (if (left.filter (fun k => k != l)).isEmpty then RestartStep.contexts else .flush (left.filter (fun k => k != l))) =
      if (∀ k ∈ left, k = l) then .contexts else .flush (left.filter (fun k => k != l)) := by
  have h : (left.filter (fun k => k != l)).isEmpty = true ↔ ∀ k ∈ left, k = l := by simp
  simp only [h]

/-! ### Step 3 (R41) -/

theorem refersTo_iff (r : Ctx) (k : SlotIx) :
    refersTo r k.val = true ↔ r.current = some k ∨ r.next.map Prod.fst = some k := by
  have one : ∀ o : Option SlotIx, (o.map Fin.val == some k.val) = true ↔ o = some k := fun o => by
    cases o <;> simp [Fin.ext_iff]
  rw [refersTo, Bool.or_eq_true, one, one]

/-- The third step releases a slot exactly when its owner holds it under the present generation and names it. -/
theorem restartContexts_slot (s : State) (k : SlotIx) {x : CtxIx} {g : Gen} (ho : (s.slot k).owner = some (x, g)) :
    (restartContexts s).slot k =
      if (s.ctx x).generation = g ∧ ((s.ctx x).current = some k ∨ (s.ctx x).next.map Prod.fst = some k) ∧
        (s.slot k).state ≠ .free ∧ (s.slot k).state ≠ .scrubbing then releaseSlot (s.slot k) else s.slot k := by
  show (releaseAll (fun _ => true) s).slot k = _
  rw [releaseAll_slot, releaseNamed_eq _ _ _ ho]
  simp only [refersTo_iff, true_and]

theorem restartContexts_slot_unowned (s : State) (k : SlotIx) (ho : (s.slot k).owner = none) :
    (restartContexts s).slot k = s.slot k := by
  show (releaseAll (fun _ => true) s).slot k = _
  rw [releaseAll_slot, releaseNamed, ho]

/-- A slot that no context names under its present generation stays. -/
theorem restartContexts_slot_kept (s : State) (k : SlotIx)
    (h : ∀ x g, (s.slot k).owner = some (x, g) →
      ¬((s.ctx x).generation = g ∧ ((s.ctx x).current = some k ∨ (s.ctx x).next.map Prod.fst = some k))) :
    (restartContexts s).slot k = s.slot k := by
  cases ho : (s.slot k).owner with
  | none => exact restartContexts_slot_unowned s k ho
  | some o =>
    rw [restartContexts_slot s k ho]
    exact if_neg fun hc => h o.1 o.2 ho ⟨hc.1, hc.2.1⟩

theorem restartContexts_ctx (s : State) (x : CtxIx) :
    (restartContexts s).ctx x = { Ctx.reset with generation := (s.ctx x).generation + 1#16 } := by
  simp [restartContexts, State.ctx, restartedRecord]

/-- Settles O59, a step at a time. -/
theorem restartStepsOneToThree : Obligations.RestartStepsOneToThree := by
  unfold Obligations.RestartStepsOneToThree
  refine ⟨fun s c hc => ?_, fun s c free hp hs => ?_, fun s c left free l hp hs hl => ?_, fun s c free hp hs => ?_⟩
  · have e : takeCommand 0x0A (fun _ s => .waits (.restart .selector false) s) s = setStage c (.restart .selector false) s :=
      takeCommand_goesOn hc rfl
    refine ⟨_, rfl, ?_, congrArg State.agent e⟩
    rw [e]; exact settled_agent _ _ _ _ _
  · refine ⟨_, rfl, ?_⟩
    rw [restartSelector_eq hp hs]
    exact ⟨Selector.reset_entries, rfl, rfl⟩
  · refine ⟨flushLane l false s, laneFlush l .restart s, rfl, rfl, ?_⟩
    simp only [laneFlush, restartFlush_eq hp hs hl, flushLane_marked, flush_next]
    have agent := flushLane_agent l false s
    generalize flushLane l false s = v at agent ⊢
    rw [← agent]
    exact ⟨rfl, rfl, rfl, rfl, rfl⟩
  · have ht : restartContextStep s =
        if s.transit.flushReports.any FlushReport.restart then s
        else setStage c (.restart .jobs free) (restartContexts s) := by
      simp only [restartContextStep, restartAt_eq hp hs]
    refine ⟨fun h => ?_, fun h => ⟨setStage c (.restart .jobs free) (restartContexts s), ?_, restartContexts_ctx s,
      fun k x hk ho hst => ?_, fun k x n hn ho => ⟨fun hst => ?_, fun hst => ?_⟩, fun k hk => ?_, fun k hk => ?_, rfl, rfl⟩⟩
    · exact congrArg Host.Outcome.next (ht.trans (if_pos h))
    · exact congrArg Host.Outcome.next (ht.trans (if_neg (by simp [h])))
    · show (restartContexts s).slot k = _
      rw [restartContexts_slot s k ho, if_pos ⟨rfl, .inl hk, by simp [hst], by simp [hst]⟩, releaseSlot, hst]
    · show (restartContexts s).slot k = _
      rw [restartContexts_slot s k ho, if_pos ⟨rfl, .inr (by simp [hn]), by simp [hst], by simp [hst]⟩, releaseSlot, hst]
    · show (restartContexts s).slot k = _
      rw [restartContexts_slot s k ho, if_pos ⟨rfl, .inr (by simp [hn]), by simp [hst], by simp [hst]⟩, releaseSlot, hst]
    · exact restartContexts_slot_kept s k fun x g _ hc => hc.2.elim (hk x).1 (hk x).2
    · exact restartContexts_slot_kept s k fun x g ho hc => hk x (by rw [ho, hc.1])

end Sys2Proof.Machine
end

section
/-! The completion of a PASS record (O27). -/

namespace Sys2Proof.Machine

variable {s : State}

/-! ### The three outcomes of a hand-over (R122, R123, R129) -/

theorem handOver_admitted {l : Lane} {c : Cls} {f : CampusFrame} (owner : Option (CtxIx × Gen))
    (up : (s.campusOf l).linkUp = true) (fits : campusFits (s.campusOf l) c f.lOut = true) :
    handOver l c f owner s = s.setCampus l (campusStart
      { s.campusOf l with queues := put (s.campusOf l).queues c (look (s.campusOf l).queues c ++ [f]) }) :=
  (if_pos up).trans (if_pos fits)

theorem handOver_dropped {l : Lane} {c : Cls} {f : CampusFrame} (owner : Option (CtxIx × Gen))
    (up : (s.campusOf l).linkUp = true) (full : ¬campusFits (s.campusOf l) c f.lOut = true) :
    handOver l c f owner s = reportQueueDrop owner (s.setCampus l ((s.campusOf l).count (.queueDrops c) 1)) :=
  (if_pos up).trans (if_neg full)

theorem handOver_linkDown {l : Lane} (c : Cls) (f : CampusFrame) (owner : Option (CtxIx × Gen))
    (down : ¬(s.campusOf l).linkUp = true) :
    handOver l c f owner s = s.setCampus l ((s.campusOf l).count .linkDownDrops 1) :=
  if_neg down

/-! ### What a hand-over and a take leave unchanged -/

/-- A hand-over reaches the Campus Queues and, by a queue-drop report, the messages in transit alone. -/
theorem handOver_frame (l : Lane) (c : Cls) (f : CampusFrame) (owner : Option (CtxIx × Gen)) (s : State) :
    handOver l c f owner s =
      { s with campus := (handOver l c f owner s).campus, transit := (handOver l c f owner s).transit } := by
  by_cases up : (s.campusOf l).linkUp = true
  · by_cases fits : campusFits (s.campusOf l) c f.lOut = true
    · rw [handOver_admitted owner up fits]; rfl
    · rw [handOver_dropped owner up fits]; cases owner <;> rfl
  · rw [handOver_linkDown c f owner up]; rfl

/-- What the Campus Queue does with a frame does not depend on the Cipher Lanes. -/
theorem handOver_setCipher (l : Lane) (c : Cls) (f : CampusFrame) (owner : Option (CtxIx × Gen)) (s : State) (j : Lane)
    (x : CipherLane) : handOver l c f owner (s.setCipher j x) = (handOver l c f owner s).setCipher j x := by
  by_cases up : (s.campusOf l).linkUp = true
  · by_cases fits : campusFits (s.campusOf l) c f.lOut = true
    · rw [handOver_admitted owner up fits, handOver_admitted (s := s.setCipher j x) owner up fits]; rfl
    · rw [handOver_dropped owner up fits, handOver_dropped (s := s.setCipher j x) owner up fits]; cases owner <;> rfl
  · rw [handOver_linkDown c f owner up, handOver_linkDown (s := s.setCipher j x) c f owner up]; rfl

theorem handOver_ks (l : Lane) (c : Cls) (f : CampusFrame) (owner : Option (CtxIx × Gen)) (s : State) :
    (handOver l c f owner s).ks = s.ks := by rw [handOver_frame]

theorem handOver_ctxs (l : Lane) (c : Cls) (f : CampusFrame) (owner : Option (CtxIx × Gen)) (s : State) :
    (handOver l c f owner s).ctxs = s.ctxs := by rw [handOver_frame]

theorem laneTake_campus (l : Lane) (s : State) : (laneTake l s).campus = s.campus := by rw [laneTake_frame]

theorem laneTake_ks (l : Lane) (s : State) : (laneTake l s).ks = s.ks := by rw [laneTake_frame]

theorem laneTake_ctxs (l : Lane) (s : State) : (laneTake l s).ctxs = s.ctxs := by rw [laneTake_frame]

/-! ### The completion (R110) -/

theorem passCompletion_pass {l : Lane} {f : Bytes} {cls : Cls} {rest : List Rec}
    (h : (s.cipherOf l).recs = .pass f cls :: rest) :
    passCompletion l s = laneTake l (handOver l cls ⟨f, f.length⟩ none (dropRecord l rest s)) := by
  simp only [passCompletion, h]

/-- Settles O27: the removal of the record passes through the hand-over, and the take that follows reaches neither the Campus
Queue nor a slot nor a context record. -/
theorem passRecordCompletes : Obligations.PassRecordCompletes := by
  unfold Obligations.PassRecordCompletes
  intro l s f cls rest h
  refine ⟨_, congrArg Host.Outcome.next (passCompletion_pass h), rfl, ?_, ?_, ?_⟩
  · rw [State.campusOf, laneTake_campus, dropRecord, handOver_setCipher, State.setCipher_campus]
  · rw [laneTake_ks, handOver_ks, dropRecord, State.setCipher_ks]
  · rw [laneTake_ctxs, handOver_ctxs, dropRecord, State.setCipher_ctxs]

end Sys2Proof.Machine
end

section
/-! The Campus Queue: a hand-over, the transmitter and the link state (O32, O33). -/

namespace Sys2Proof.Machine

/-! ### Replacements of a Campus Queue -/

@[simp] theorem State.setCampus_setCampus (s : State) (l : Lane) (x y : CampusQueue) :
    (s.setCampus l x).setCampus l y = s.setCampus l y := by
  simp [State.setCampus]

@[simp] theorem State.setCampus_self (s : State) (l : Lane) : s.setCampus l (s.campusOf l) = s := by
  simp [State.setCampus, State.campusOf]

/-- The row of a start makes it at the Campus Queue as it stands (R126). -/
theorem exec_campusTransmitStart_setCampus (l : Lane) (s : State) (q : CampusQueue) :
    exec (.campusTransmitStart l) (s.setCampus l q) = .next (s.setCampus l (campusStart q)) := by
  show Host.Outcome.next ((s.setCampus l q).setCampus l (campusStart ((s.setCampus l q).campusOf l))) = _
  rw [State.setCampus_campusOf_same, State.setCampus_setCampus]

/-! ### Admission and its reports (R122, R123) -/

theorem campusFits_iff (q : CampusQueue) (c : Cls) (n : Nat) :
    campusFits q c n = true ↔ classOccupancy q c + n ≤ look q.limits c ∧ totalOccupancy q + n ≤ 1048576 := by
  rw [campusFits, Bool.and_eq_true, decide_eq_true_iff, decide_eq_true_iff]; rfl

/-- A dropped frame is reported when it has an owner, which a protected frame has. -/
theorem reportQueueDrop_eq (owner : Option (CtxIx × Gen)) (s : State) :
    reportQueueDrop owner s =
      s.setTransit { s.transit with queueReports := s.transit.queueReports ++ owner.toList } := by
  cases owner with
  | none => simp [reportQueueDrop, State.setTransit]
  | some o => rfl

/-! ### The arbiter (R126) -/

/-- The arbiter goes through the classes from the highest down, so it takes the head of `c` where no higher class has one. -/
theorem firstClass_highest {q : CampusQueue} {cs : List Cls} {c : Cls} {f : CampusFrame} {rest : List CampusFrame}
    (down : cs.Pairwise (fun a b => b < a)) (hc : c ∈ cs) (hq : look q.queues c = f :: rest)
    (above : ∀ d, c < d → look q.queues d = []) : firstClass q cs = some (c, f, rest) := by
  induction cs with
  | nil => cases hc
  | cons d ds ih =>
    obtain ⟨hd, down⟩ := List.pairwise_cons.1 down
    rcases List.mem_cons.1 hc with rfl | hm
    · simp only [firstClass, hq]
    · simp only [firstClass, above d (hd c hm)]
      exact ih down hm

/-- The arbiter finds a frame where one waits. -/
theorem firstClass_isSome {q : CampusQueue} {cs : List Cls} {c : Cls} (hc : c ∈ cs) (hq : look q.queues c ≠ []) :
    (firstClass q cs).isSome = true := by
  induction cs with
  | nil => cases hc
  | cons d ds ih =>
    unfold firstClass
    split
    · rfl
    · next he =>
      rcases List.mem_cons.1 hc with rfl | hm
      · exact absurd he hq
      · exact ih hm

theorem mem_classes (c : Cls) : c ∈ [(3 : Cls), 2, 1, 0] := by
  revert c; decide

theorem campusStart_head {q : CampusQueue} {c : Cls} {f : CampusFrame} {rest : List CampusFrame} (up : q.linkUp = true)
    (idle : q.sending = none) (hq : look q.queues c = f :: rest) (above : ∀ d : Cls, c.val < d.val → look q.queues d = []) :
    campusStart q = { q with queues := put q.queues c rest, sending := some (c, f) } := by
  simp only [campusStart, idle, up, firstClass_highest (by decide) (mem_classes c) hq above]
  rfl

/-- While the link is UP the transmitter is not IDLE after a start where a frame waits. -/
theorem campusStart_sending {q : CampusQueue} {c : Cls} (up : q.linkUp = true) (hq : look q.queues c ≠ []) :
    (campusStart q).sending.isSome = true := by
  obtain ⟨⟨d, f, rest⟩, hf⟩ := Option.isSome_iff_exists.1 (firstClass_isSome (mem_classes c) hq)
  cases hs : q.sending with
  | none => simp [campusStart, hs, up, hf]
  | some x => simp [campusStart, hs]

/-- Settles O32: the three outcomes of a hand-over. -/
theorem handOverAdmitsOrDrops : Obligations.HandOverAdmitsOrDrops := by
  unfold Obligations.HandOverAdmitsOrDrops
  intro l cls f owner s q t
  refine ⟨fun up hclass htotal => ?_, fun up full => ?_, fun down => ?_⟩
  · have ht : t = s.setCampus l (campusStart { q with queues := put q.queues cls (look q.queues cls ++ [f]) }) :=
      handOver_admitted owner up ((campusFits_iff q cls f.lOut).2 ⟨hclass, htotal⟩)
    rw [ht, State.setCampus_campusOf_same, campusStart_classOccupancy, classOccupancy_queued, if_pos rfl,
      campusStart_totalOccupancy, totalOccupancy_queued, campusStart_counters]
    refine ⟨exec_campusTransmitStart_setCampus l s _, rfl, fun d hd => ?_, rfl, campusStart_sending (c := cls) up ?_, rfl, rfl⟩
    · rw [campusStart_classOccupancy, classOccupancy_queued, if_neg hd, Nat.add_zero]
    · simp
  · have hf : ¬campusFits q cls f.lOut = true := fun h => by
      have := (campusFits_iff q cls f.lOut).1 h
      omega
    exact (handOver_dropped owner up hf).trans (reportQueueDrop_eq _ _)
  · exact handOver_linkDown cls f owner (by rw [down]; decide)

/-! ### The end of a transmission and the link state (R127, R129, R130) -/

/-- The frame in transmission takes up its L_out in its class (R121). -/
theorem totalOccupancy_sending {q : CampusQueue} {c : Cls} {f : CampusFrame} (h : q.sending = some (c, f)) :
    totalOccupancy q = totalOccupancy { q with sending := none } + f.lOut := by
  simp only [totalOccupancy, classOccupancy, h]
  match c with
  | 0 | 1 | 2 | 3 => simp; omega

theorem queuedFrames_eq (q : CampusQueue) :
    queuedFrames q = (look q.queues 0).length + (look q.queues 1).length + (look q.queues 2).length +
      (look q.queues 3).length := by
  simp [queuedFrames, toList_eq_ofFn, List.ofFn_succ, Nat.add_assoc]

theorem campusEnd_sent {q : CampusQueue} {c : Cls} {f : CampusFrame} (h : q.sending = some (c, f)) :
    campusEnd q = campusStart ((({ q with sending := none } : CampusQueue).count .transmittedFrames 1).count
      .transmittedBytes f.lOut) := by
  simp only [campusEnd, h]

theorem campusDown_up {q : CampusQueue} (up : q.linkUp = true) :
    campusDown q = ({ q with queues := Vector.replicate 4 [], sending := none, linkUp := false } : CampusQueue).count
      .linkDownDrops (queuedFrames q + sendingFrames q) :=
  if_pos up

theorem campusDown_down {q : CampusQueue} (down : q.linkUp = false) : campusDown q = q :=
  if_neg (by rw [down]; decide)

/-- A Campus Queue that holds no frame is empty in every class (R121). -/
theorem totalOccupancy_empty {q : CampusQueue} (hq : ∀ c, look q.queues c = []) (hs : q.sending = none) :
    totalOccupancy q = 0 := by
  simp [totalOccupancy, classOccupancy, hq, hs, lOutSum]

/-- Settles O33, an event at a time. -/
theorem campusTransmitter : Obligations.CampusTransmitter := by
  unfold Obligations.CampusTransmitter
  refine ⟨fun l s cls f rest up idle hq above => ?_, fun l s cls f hs => ?_, fun l s up => ?_, fun l s down => ?_⟩
  · refine ⟨_, rfl, ?_, ?_⟩
    · rw [campusStart_head up idle hq above]
    · rw [State.setCampus_campusOf_same, campusStart_totalOccupancy]
  · refine ⟨_, rfl, ?_⟩
    rw [State.setCampus_campusOf_same, campusEnd_sent hs, campusStart_totalOccupancy, totalOccupancy_sending hs]
    exact ⟨rfl, exec_campusTransmitStart_setCampus l s _, rfl⟩
  · have empty : ∀ c : Cls, look (Vector.replicate 4 ([] : List CampusFrame)) c = [] := fun c => by simp [look]
    refine ⟨_, rfl, ?_⟩
    rw [State.setCampus_campusOf_same, campusDown_up up, queuedFrames_eq]
    exact ⟨rfl, totalOccupancy_empty empty rfl, rfl, empty, rfl, rfl, rfl, rfl⟩
  · refine ⟨?_, rfl⟩
    show Host.Outcome.next (s.setCampus l (campusDown (s.campusOf l))) = _
    rw [campusDown_down down, State.setCampus_self]

end Sys2Proof.Machine
end

section
/-! The device settings, the time base, the sweep range and LANE_SET (O47). -/

namespace Sys2Proof.Machine

/-! ### ENVELOPE_TYPE_SET (R158, R169) -/

theorem badEnvelopeType_iff (v : Nat) : badEnvelopeType v = true ↔ v = 0x8100 ∨ v ≤ 0x05FF := by
  simp [badEnvelopeType]

/-! ### TIME_BASE_SET and SWEEP_RANGE_SET (R137, R139, R170) -/

theorem timeBaseSet_refused (c : Command) (s : State) (h : 3 < field (cmdBody c) 0 1) :
    timeBaseSet c s = .refuse .badValue :=
  refuseIf_pos (decide_eq_true h) _ _

/-- With bit 1 of the flags set, the two dividers are zeroed and the settings stay. -/
theorem timeBaseSet_keeps (c : Command) (s : State) (h : field (cmdBody c) 0 1 = 2 ∨ field (cmdBody c) 0 1 = 3) :
    timeBaseSet c s = .done .ok (timeBaseOctets s.age) (s.setAge { s.age with prescaleDiv := 0, countDiv := 0 }) := by
  have hbit : (field (cmdBody c) 0 1).testBit 1 = true := by rcases h with e | e <;> rw [e] <;> decide
  have hle : ¬3 < field (cmdBody c) 0 1 := by omega
  simp only [timeBaseSet, timeBaseStored, hbit, if_pos]
  exact refuseIf_neg (decide_eq_false hle) _ _

/-- With bit 1 of the flags clear, bit 0 gives the enable, and the two divisors are raised to 2 at least. -/
theorem timeBaseSet_stores (c : Command) (s : State) (h : field (cmdBody c) 0 1 ≤ 1) :
    timeBaseSet c s = .done
      (if field (cmdBody c) 1 2 < 2 ∨ field (cmdBody c) 3 2 < 2 then .okClamped else .ok)
      (boolOctet (field (cmdBody c) 0 1 == 1) ++ octetsOf 2 (max 2 (field (cmdBody c) 1 2)) ++
        octetsOf 2 (max 2 (field (cmdBody c) 3 2)))
      (s.setAge { s.age with
        enable := field (cmdBody c) 0 1 == 1
        prescale := max 2 (field (cmdBody c) 1 2)
        count := max 2 (field (cmdBody c) 3 2)
        prescaleDiv := 0
        countDiv := 0 }) := by
  have hbits : (field (cmdBody c) 0 1).testBit 1 = false ∧
      (field (cmdBody c) 0 1).testBit 0 = (field (cmdBody c) 0 1 == 1) := by
    rcases Nat.le_one_iff_eq_zero_or_eq_one.1 h with e | e <;> rw [e] <;> decide
  have hle : ¬3 < field (cmdBody c) 0 1 := by omega
  simp only [timeBaseSet, timeBaseStored, hbits, refuseIf_neg (decide_eq_false hle), timeBaseOctets, okOr]
  simp

theorem sweepRangeSet_refused (c : Command) (s : State)
    (h : 1024 ≤ field (cmdBody c) 0 2 ∨ 1024 ≤ field (cmdBody c) 2 2) : sweepRangeSet c s = .refuse .badIndex := by
  rcases h with h | h
  · simp only [sweepRangeSet, indexOf_none h]
  · cases ha : indexOf 1024 (field (cmdBody c) 0 2) with
    | none => simp only [sweepRangeSet, ha]
    | some a => simp only [sweepRangeSet, ha, indexOf_none h]

theorem sweepRangeSet_done (c : Command) (s : State) {a b : CtxIx} (ha : field (cmdBody c) 0 2 = a.val)
    (hb : field (cmdBody c) 2 2 = b.val) :
    sweepRangeSet c s =
      .done .ok (octetsOf 2 a.val ++ octetsOf 2 b.val) (s.setAge { s.age with sweepStart := a, sweepStop := b }) := by
  simp only [sweepRangeSet, ha, hb, indexOf_val]

/-! ### LANE_SET (R124, R171) -/

/-- The bounds of a class limit are whole KiB, so rounding down leaves a limit within them. -/
theorem clampLimit_eq (v : Nat) : clampLimit v = max 16384 (min 1048576 v) / 1024 * 1024 := by
  have hb : campusBufferBytes = 1048576 := rfl
  simp only [clampLimit, hb]
  split
  · omega
  · split <;> omega

theorem clampFrameLimit_eq (v : Nat) : clampFrameLimit v = max 1518 (min 9600 v) := by
  unfold clampFrameLimit
  split
  · omega
  · split <;> omega

theorem laneSet_badIndex (c : Command) (s : State) (h : 4 ≤ field (cmdBody c) 0 1) : laneSet c s = .refuse .badIndex := by
  simp only [laneSet, indexOf_none h]

theorem okOr_decide_ne {α : Type} [DecidableEq α] (x y : α) : okOr (decide (x ≠ y)) = if x = y then .ok else .okClamped := by
  by_cases h : x = y <;> simp [okOr, h]

/-- Settles O47, a command at a time. -/
theorem deviceSettings : Obligations.DeviceSettings := by
  unfold Obligations.DeviceSettings
  refine ⟨fun s c hc => ?_, fun s c hc => ?_, fun s c hc => ?_, fun s c hc => ?_, fun s c hc => ?_⟩
  · exact ⟨_, rfl, takeCommand_done hc rfl⟩
  · refine ⟨_, rfl, fun h => ?_, fun hne hlt => ?_⟩
    · exact takeCommand_refuse hc (refuseIf_pos ((badEnvelopeType_iff _).2 h) _ _)
    · have hok : badEnvelopeType (field (cmdBody c) 0 2) = false := by
        rw [← Bool.not_eq_true, badEnvelopeType_iff]; omega
      exact takeCommand_done hc (refuseIf_neg hok _ _)
  · exact ⟨_, rfl, fun h => takeCommand_refuse hc (timeBaseSet_refused c s h),
      fun h => takeCommand_done hc (timeBaseSet_keeps c s h), fun h => takeCommand_done hc (timeBaseSet_stores c s h)⟩
  · exact ⟨_, rfl, fun h => takeCommand_refuse hc (sweepRangeSet_refused c s h),
      fun a b ha hb => takeCommand_done hc (sweepRangeSet_done c s ha hb)⟩
  · intro b clampClass clampFrame fl l0 l1 l2 l3
    refine ⟨_, rfl, fun h => takeCommand_refuse hc (laneSet_badIndex c s h), fun l hl => takeCommand_done hc ?_⟩
    have hb : cmdBody c = b := rfl
    simp only [laneSet, hb, hl, indexOf_val, laneSetGiven, okOr_decide_ne, clampLimit_eq, clampFrameLimit_eq,
      Prod.mk.injEq, List.cons.injEq, and_true]
    rfl

end Sys2Proof.Machine
end

section
/-! The time base, age ticks and the start of a pass (O38). -/

namespace Sys2Proof.Machine

variable {s : State}

/-! ### An event of the time base (R136, R190) -/

/-- A replacement of the Age Timer lets no notice depart. -/
theorem departNew_setAge (s : State) (a : AgeTimer) : departNew s (s.setAge a) = s.setAge a := by
  have hn : noticeNew s (s.setAge a) = false := Bool.not_and_self (noticeReady s)
  exact if_neg (Bool.eq_false_iff.1 hn)

/-- The departure looks at the event's beginning only to tell whether a departure was possible then. -/
theorem departNew_congr {a b : State} (h : noticeReady a = noticeReady b) (s : State) : departNew a s = departNew b s := by
  have hn : noticeNew a s = noticeNew b s := congrArg (fun r => !r && noticeReady s) h
  exact congrArg (fun n : Bool => if n then depart s else s) hn

theorem whenEnabled_eq (f : State → State) (h : s.age.enable = true) : whenEnabled f s = departNew s (f s) := if_pos h

/-- An event of the time base that changes the Age Timer alone. -/
theorem whenEnabled_setAge {f : State → State} {a : AgeTimer} (h : s.age.enable = true) (hf : f s = s.setAge a) :
    whenEnabled f s = s.setAge a := by
  rw [whenEnabled_eq f h, hf, departNew_setAge]

/-- A divider's wrap: the event takes the next part of the time base, as the row of that part sent alone does (assumption 6). -/
theorem whenEnabled_wraps {f g : State → State} {a : AgeTimer} (h : s.age.enable = true) (ha : a.enable = true)
    (hf : f s = g (s.setAge a)) : whenEnabled f s = whenEnabled g (s.setAge a) := by
  have hr : noticeReady s = noticeReady (s.setAge a) := rfl
  have hg : whenEnabled g (s.setAge a) = departNew (s.setAge a) (g (s.setAge a)) := whenEnabled_eq g ha
  rw [whenEnabled_eq f h, hf, hg, departNew_congr hr]

/-! ### The dividers (R136) -/

theorem referenceTick_advances (h : s.age.prescaleDiv + 1 < s.age.prescale) :
    referenceTick s = s.setAge { s.age with prescaleDiv := s.age.prescaleDiv + 1 } := if_pos h

theorem referenceTick_wraps (h : s.age.prescale ≤ s.age.prescaleDiv + 1) :
    referenceTick s = countStep (s.setAge { s.age with prescaleDiv := 0 }) := if_neg (Nat.not_lt.2 h)

theorem countStep_advances (h : s.age.countDiv + 1 < s.age.count) :
    countStep s = s.setAge { s.age with countDiv := s.age.countDiv + 1 } := if_pos h

theorem countStep_wraps (h : s.age.count ≤ s.age.countDiv + 1) :
    countStep s = ageTick (s.setAge { s.age with countDiv := 0 }) := if_neg (Nat.not_lt.2 h)

theorem exec_referenceTick_wraps (he : s.age.enable = true) (h : s.age.prescale ≤ s.age.prescaleDiv + 1) :
    exec .referenceTick s = exec .countStep (s.setAge { s.age with prescaleDiv := 0 }) :=
  congrArg Host.Outcome.next (whenEnabled_wraps (a := { s.age with prescaleDiv := 0 }) he he (referenceTick_wraps h))

theorem exec_countStep_wraps (he : s.age.enable = true) (h : s.age.count ≤ s.age.countDiv + 1) :
    exec .countStep s = exec .ageTick (s.setAge { s.age with countDiv := 0 }) :=
  congrArg Host.Outcome.next (whenEnabled_wraps (a := { s.age with countDiv := 0 }) he he (countStep_wraps h))

/-! ### The start of a pass (R140) -/

/-- The start of a pass takes the owed ticks as its increment over a range that holds an index. -/
theorem startPass_runs {a : AgeTimer} (h : a.sweepStart.val ≤ a.sweepStop.val) :
    startPass a = { a with owed := 0, pass := some ⟨a.owed, a.sweepStart, a.sweepStop, a.sweepStart⟩ } := if_pos h

/-- Over an empty range the pass completes at once, and an IDLE timer stays IDLE. -/
theorem startPass_emptyRange {a : AgeTimer} (hp : a.pass = none) (h : a.sweepStop.val < a.sweepStart.val) :
    startPass a = { a with owed := 0 } := by
  have hs : startPass a = { a with owed := 0, pass := none } := if_neg (Nat.not_le.2 h)
  rw [hs, ← hp]

theorem passStart_idle {a : AgeTimer} (hp : a.pass = none) (ho : 0 < a.owed) : passStart a = startPass a := by
  have hc : (a.pass.isNone && decide (0 < a.owed)) = true := by
    rw [hp]
    exact decide_eq_true ho
  exact if_pos hc

/-! ### The age tick (R138) -/

theorem ageTick_idle (h : s.age.pass = none) : ageTick s = s.setAge (startPass { s.age with owed := 1 }) :=
  if_pos (Option.isNone_iff_eq_none.2 h)

theorem ageTick_running (h : s.age.pass.isSome = true) :
    ageTick s = if s.age.owed < owedMax then raiseDevice .sweepLag (s.setAge { s.age with owed := s.age.owed + 1 })
      else raiseDevice .sweepLag (s.setAge { s.age with lostTicks := satAdd s.age.lostTicks 1 }) :=
  if_neg (mt Option.isNone_iff_eq_none.1 (Option.isSome_iff_ne_none.1 h))

theorem ageTick_owes (h : s.age.pass.isSome = true) (ho : s.age.owed < 15) :
    ageTick s = raiseDevice .sweepLag (s.setAge { s.age with owed := s.age.owed + 1 }) :=
  (ageTick_running h).trans (if_pos ho)

theorem ageTick_loses (h : s.age.pass.isSome = true) (ho : 15 ≤ s.age.owed) :
    ageTick s = raiseDevice .sweepLag (s.setAge { s.age with lostTicks := min (s.age.lostTicks + 1) counterMax }) :=
  (ageTick_running h).trans (if_neg (Nat.not_lt.2 ho))

/-- An age tick at an IDLE timer that owes nothing is the start of a pass for the one tick. -/
theorem exec_ageTick_idle (he : s.age.enable = true) (hp : s.age.pass = none) :
    exec .ageTick s = exec .passStart (s.setAge { s.age with owed := 1 }) := by
  have hs : passStart { s.age with owed := 1 } = startPass { s.age with owed := 1 } := passStart_idle hp Nat.one_pos
  show Host.Outcome.next (whenEnabled ageTick s) =
    .next ((s.setAge { s.age with owed := 1 }).setAge (passStart { s.age with owed := 1 }))
  rw [whenEnabled_setAge he (ageTick_idle hp), hs]
  rfl

/-- An age tick that changes the Age Timer and raises SWEEP_LAG has the rise handled (R186 to R188). -/
theorem exec_ageTick_lags {a : AgeTimer} (he : s.age.enable = true) (ht : ageTick s = raiseDevice .sweepLag (s.setAge a)) :
    ∃ t, exec .ageTick s = .next t ∧ Settled (s.setAge a) t ∧ hasFlag t.notice.flags DevFlag.sweepLag.bit = true ∧
      DeviceRiseHandled .sweepLag (s.setAge a) t := by
  have hw : whenEnabled ageTick s = departNew s (raiseDevice .sweepLag (s.setAge a)) := by rw [whenEnabled_eq _ he, ht]
  refine ⟨_, congrArg Host.Outcome.next hw, (raiseDevice_settled _ _).trans (departNew_settled _ _), ?_,
    departNew_device .sweepLag rfl rfl rfl⟩
  rw [departNew_flags]
  exact raiseDevice_flag _ _

/-- PASS_START at an IDLE timer that owes ticks. -/
theorem exec_passStart_idle (hp : s.age.pass = none) (ho : 0 < s.age.owed) :
    exec .passStart s = .next (s.setAge (startPass s.age)) :=
  congrArg (fun a => Host.Outcome.next (s.setAge a)) (passStart_idle hp ho)

/-- Settles O38: a divider's wrap is the row of the next part, an age tick starts a pass or is owed or lost, and a pass starts
over the stored range. -/
theorem timeBaseProducesAgeTicks : Obligations.TimeBaseProducesAgeTicks := by
  unfold Obligations.TimeBaseProducesAgeTicks
  refine ⟨fun s he => ⟨fun h => ?_, fun h => ?_, fun h => ?_, fun h => ?_, fun hp _ => exec_ageTick_idle he hp,
    fun hp ho => exec_ageTick_lags he (ageTick_owes hp ho), fun hp ho => exec_ageTick_lags he (ageTick_loses hp ho)⟩,
    fun s hp ho => ⟨fun h => ?_, fun h => ?_⟩⟩
  · exact congrArg Host.Outcome.next (whenEnabled_setAge he (referenceTick_advances h))
  · exact ⟨_, exec_referenceTick_wraps he h, rfl⟩
  · exact congrArg Host.Outcome.next (whenEnabled_setAge he (countStep_advances h))
  · exact ⟨_, exec_countStep_wraps he h, rfl⟩
  · rw [exec_passStart_idle hp ho, startPass_runs h]
  · rw [exec_passStart_idle hp ho, startPass_emptyRange hp h]

end Sys2Proof.Machine
end

section
/-! The layout of a control-origin frame, and of a response (O44). -/

namespace Sys2Proof.Machine

/-! ### Slices and numbers -/

theorem slice_append {a b : Bytes} (c : Bytes) {off len : Nat} (ha : a.length = off) (hb : b.length = len) :
    slice (a ++ b ++ c) off len = b := by
  subst ha hb
  simp [slice]

/-- A slice of a slice is the slice that begins as much later. -/
theorem slice_slice (f : Bytes) (a : Nat) {n b m : Nat} (h : b + m ≤ n) : slice (slice f a n) b m = slice f (a + b) m := by
  have hm : min m (n - b) = m := by omega
  simp only [slice, List.drop_take, List.drop_drop, List.take_take, hm]

theorem slice_length {f : Bytes} {off len : Nat} (h : off + len ≤ f.length) : (slice f off len).length = len := by
  simp only [slice, List.length_take, List.length_drop]
  omega

theorem numOf_cons (b : Byte) (bs : Bytes) : numOf (b :: bs) = b.toNat * 256 ^ bs.length + numOf bs := by
  have step : ∀ (bs : Bytes) (a : Nat), bs.foldl (fun a b => a * 256 + b.toNat) a = a * 256 ^ bs.length + numOf bs := by
    intro bs
    induction bs with
    | nil => intro a; simp [numOf]
    | cons b bs ih =>
      intro a
      have h₁ := ih (a * 256 + b.toNat)
      have h₂ := ih (0 * 256 + b.toNat)
      simp only [numOf, List.foldl_cons, List.length_cons] at h₁ h₂ ⊢
      rw [h₁, h₂, Nat.zero_mul, Nat.zero_add, Nat.add_mul, Nat.pow_succ', Nat.mul_assoc, Nat.add_assoc]
  rw [numOf, List.foldl_cons, Nat.zero_mul, Nat.zero_add]
  exact step bs b.toNat

/-- `n` octets do not show what stands above them. -/
theorem octetsOf_mul_add (n a v : Nat) : octetsOf n (a * 256 ^ n + v) = octetsOf n v := by
  induction n generalizing a v with
  | zero => rfl
  | succ n ih =>
    have e : a * 256 ^ (n + 1) + v = a * 256 * 256 ^ n + v := by rw [Nat.pow_succ', Nat.mul_assoc]
    have head : BitVec.ofNat 8 ((a * 256 * 256 ^ n + v) / 256 ^ n) = BitVec.ofNat 8 (v / 256 ^ n) := by
      rw [Nat.add_comm, Nat.add_mul_div_right _ _ (Nat.pow_pos (by omega))]
      apply BitVec.eq_of_toNat_eq
      simp
    rw [octetsOf, octetsOf, e, head, ih]

/-- Octets are the octets of the number they spell. -/
theorem octetsOf_numOf (bs : Bytes) : octetsOf bs.length (numOf bs) = bs := by
  induction bs with
  | nil => rfl
  | cons b bs ih =>
    have head : (b.toNat * 256 ^ bs.length + numOf bs) / 256 ^ bs.length = b.toNat := by
      rw [Nat.add_comm, Nat.add_mul_div_right _ _ (Nat.pow_pos (by omega)), Nat.div_eq_of_lt (numOf_lt bs), Nat.zero_add]
    rw [List.length_cons, octetsOf, numOf_cons, octetsOf_mul_add, ih, head, BitVec.ofNat_toNat, BitVec.setWidth_eq]

/-- The source address of a frame in octets. -/
theorem macOctets_sourceOf {f : Bytes} (h : 12 ≤ f.length) : macOctets (sourceOf f) = slice f 6 6 := by
  have hl : (slice f 6 6).length = 6 := slice_length h
  have hn : (sourceOf f).toNat = numOf (slice f 6 6) := by
    have hb := field_lt f 6 6
    simp only [sourceOf, BitVec.toNat_ofNat]
    exact Nat.mod_eq_of_lt (by omega)
  have h := octetsOf_numOf (slice f 6 6)
  rwa [hl, ← hn] at h

@[simp] theorem macOctets_length (a : Mac) : (macOctets a).length = 6 := octetsOf_length _ _

@[simp] theorem length_zeros (n : Nat) : (zeros n).length = n := List.length_replicate

/-! ### The integrity tag has 16 octets (R156) -/

/-- Every word of a list has four octets. -/
def FourOctets (ws : List Bytes) : Prop := ∀ w ∈ ws, w.length = 4

theorem FourOctets.getD {ws : List Bytes} (h : FourOctets ws) {i : Nat} (hi : i < ws.length) : (ws.getD i []).length = 4 := by
  rw [List.getD_eq_getElem?_getD, List.getElem?_eq_getElem hi, Option.getD_some]
  exact h _ (List.getElem_mem hi)

theorem FourOctets.flatten_length {ws : List Bytes} (h : FourOctets ws) : ws.flatten.length = 4 * ws.length := by
  induction ws with
  | nil => rfl
  | cons w ws ih =>
    obtain ⟨hw, hws⟩ := List.forall_mem_cons.1 h
    rw [List.flatten_cons, List.length_append, hw, ih hws, List.length_cons]
    omega

theorem xorBytes_length (a b : Bytes) : (xorBytes a b).length = min a.length b.length := List.length_zipWith

theorem nextWord_length (i : Nat) {back : List Bytes} (h : FourOctets back) (hl : 8 ≤ back.length) :
    (nextWord i back).length = 4 := by
  have h₀ := h.getD (i := 0) (by omega)
  have h₇ := h.getD (i := 7) (by omega)
  have rotated : ((back.getD 0 []).drop 1 ++ (back.getD 0 []).take 1).length = 4 := by
    simp only [List.length_append, List.length_drop, List.length_take, h₀]
    rfl
  simp only [nextWord, xorBytes_length, h₇]
  split
  · simp only [xorBytes_length, List.length_map, rotated]
    rfl
  · split
    · rw [List.length_map, h₀]
      rfl
    · rw [h₀]
      rfl

theorem expandWords_words (n i : Nat) {back : List Bytes} (h : FourOctets back) (hl : 8 ≤ back.length) :
    FourOctets (expandWords n i back) ∧ (expandWords n i back).length = back.length + n := by
  induction n generalizing i back with
  | zero => exact ⟨h, rfl⟩
  | succ n ih =>
    have hw : FourOctets (nextWord i back :: back) := List.forall_mem_cons.2 ⟨nextWord_length i h hl, h⟩
    obtain ⟨h₁, h₂⟩ := ih (i + 1) hw (Nat.le_succ_of_le hl)
    refine ⟨h₁, h₂.trans ?_⟩
    rw [List.length_cons]
    omega

/-- The key schedule has 60 words of four octets (FIPS 197). -/
theorem keySchedule_words (k : Key) : FourOctets (keySchedule (keyBytes k)) ∧ (keySchedule (keyBytes k)).length = 60 := by
  have first : FourOctets ([7, 6, 5, 4, 3, 2, 1, 0].map (fun i => slice (keyBytes k) (4 * i) 4)) := by
    intro w hw
    obtain ⟨i, hi, rfl⟩ := List.mem_map.1 hw
    have h8 : i < 8 := by simp at hi; omega
    have hk : (keyBytes k).length = 32 := octetsOf_length _ _
    exact slice_length (by omega)
  obtain ⟨h₁, h₂⟩ := expandWords_words 52 8 first (Nat.le_refl 8)
  exact ⟨fun w hw => h₁ w (List.mem_reverse.1 hw), List.length_reverse.trans h₂⟩

/-- Every round key is a block. -/
theorem roundKeys_blocks (k : Key) : ∀ b ∈ roundKeys (keyBytes k), b.length = 16 := by
  intro b hb
  obtain ⟨r, hr, rfl⟩ := List.mem_map.1 hb
  obtain ⟨hw, hl⟩ := keySchedule_words k
  have h4 : FourOctets (((keySchedule (keyBytes k)).drop (4 * r)).take 4) := fun w h =>
    hw w (List.mem_of_mem_drop (List.mem_of_mem_take h))
  have hr' : r < 15 := List.mem_range.1 hr
  rw [h4.flatten_length, List.length_take, List.length_drop, hl]
  omega

/-- The last round leaves a block, whatever it is given. -/
theorem cipherRounds_length {ks : List Bytes} (hk : ∀ k ∈ ks, k.length = 16) (hn : ks ≠ []) (st : Bytes) :
    (cipherRounds ks st).length = 16 := by
  induction ks generalizing st with
  | nil => exact absurd rfl hn
  | cons k ks ih =>
    obtain ⟨hk₁, hks⟩ := List.forall_mem_cons.1 hk
    cases ks with
    | nil =>
      have hs : (shiftRows (st.map subByte)).length = 16 := rfl
      simp only [cipherRounds, xorBytes_length, hs, hk₁, Nat.min_self]
    | cons k' ks => exact ih hks (List.cons_ne_nil _ _) _

theorem encryptWith_roundKeys_length (k : Key) (b : Bytes) : (encryptWith (roundKeys (keyBytes k)) b).length = 16 := by
  have hb := roundKeys_blocks k
  have hl : (roundKeys (keyBytes k)).length = 15 := by simp [roundKeys]
  cases hr : roundKeys (keyBytes k) with
  | nil => rw [hr] at hl; cases hl
  | cons k₀ ks =>
    rw [hr] at hb hl
    refine cipherRounds_length (fun k hk => hb k (List.mem_cons_of_mem _ hk)) (fun h => ?_) _
    rw [h] at hl
    cases hl

theorem cmacChain_length {rk : List Bytes} (h : ∀ b, (encryptWith rk b).length = 16) (k₁ k₂ acc : Bytes) (bs : List Bytes) :
    (cmacChain rk k₁ k₂ acc bs).length = 16 := by
  induction bs generalizing acc with
  | nil => exact h _
  | cons b bs ih =>
    cases bs with
    | nil =>
      unfold cmacChain
      split
      · exact h _
      · exact h _
    | cons b' bs => exact ih _

@[simp] theorem integrityTag_length (k : Option Key) (covered : Bytes) : (integrityTag k covered).length = 16 := by
  cases k with
  | none => rfl
  | some k => exact cmacChain_length (encryptWith_roundKeys_length k) _ _ _ _

/-! ### The layout of a control-origin frame (R156, R157, R191) -/

section
variable (s : State) (dest : Mac) (tag covered : Bytes)

/-- The octets of a control-origin frame before its padding. -/
def frameUnpadded : Bytes :=
  macOctets dest ++ macOctets s.agent.address ++ tag ++ octetsOf 2 controlType ++ covered ++ integrityTag s.ks.mgmtKey covered

theorem controlFrame_eq : controlFrame s dest tag covered =
    frameUnpadded s dest tag covered ++ zeros (60 - (frameUnpadded s dest tag covered).length) := rfl

theorem frameUnpadded_length : (frameUnpadded s dest tag covered).length = 30 + tag.length + covered.length := by
  simp only [frameUnpadded, List.length_append, macOctets_length, octetsOf_length, integrityTag_length]
  omega

theorem controlFrame_length : (controlFrame s dest tag covered).length = max 60 (30 + tag.length + covered.length) := by
  rw [controlFrame_eq, List.length_append, length_zeros, frameUnpadded_length]
  omega

/-- Zero octets follow the integrity tag. -/
theorem controlFrame_padding : (controlFrame s dest tag covered).drop (30 + tag.length + covered.length) =
    zeros (60 - (30 + tag.length + covered.length)) := by
  rw [controlFrame_eq, ← frameUnpadded_length, List.drop_left]

theorem controlFrame_dest : slice (controlFrame s dest tag covered) 0 6 = macOctets dest := by
  rw [controlFrame_eq, frameUnpadded]
  simp only [List.append_assoc]
  exact slice_append (a := []) _ rfl (macOctets_length _)

theorem controlFrame_source : slice (controlFrame s dest tag covered) 6 6 = macOctets s.agent.address := by
  rw [controlFrame_eq, frameUnpadded]
  have h := fun c => slice_append (a := macOctets dest) c (macOctets_length _) (macOctets_length s.agent.address)
  simp only [List.append_assoc] at h ⊢
  exact h _

theorem controlFrame_tag : slice (controlFrame s dest tag covered) 12 tag.length = tag := by
  rw [controlFrame_eq, frameUnpadded]
  have h := fun c => slice_append (a := macOctets dest ++ macOctets s.agent.address) (b := tag) (off := 12) c (by simp) rfl
  simp only [List.append_assoc] at h ⊢
  exact h _

theorem controlFrame_type : field (controlFrame s dest tag covered) (12 + tag.length) 2 = 0x9D4F := by
  have h := fun c => slice_append (a := macOctets dest ++ macOctets s.agent.address ++ tag) (b := octetsOf 2 controlType)
    (off := 12 + tag.length) c (by simp [← Nat.add_assoc]) rfl
  have hs : slice (controlFrame s dest tag covered) (12 + tag.length) 2 = octetsOf 2 controlType := by
    rw [controlFrame_eq, frameUnpadded]
    simp only [List.append_assoc] at h ⊢
    exact h _
  rw [field, hs]
  rfl

theorem controlFrame_covered : slice (controlFrame s dest tag covered) (14 + tag.length) covered.length = covered := by
  rw [controlFrame_eq, frameUnpadded]
  have h := fun c => slice_append (a := macOctets dest ++ macOctets s.agent.address ++ tag ++ octetsOf 2 controlType)
    (b := covered) (off := 14 + tag.length) c (by simp; omega) rfl
  simp only [List.append_assoc] at h ⊢
  exact h _

theorem controlFrame_integrity : slice (controlFrame s dest tag covered) (14 + tag.length + covered.length) 16 =
    integrityTag s.ks.mgmtKey covered := by
  rw [controlFrame_eq, frameUnpadded]
  exact slice_append _ (by simp; omega) (integrityTag_length _ _)

end

theorem controlHeader_length (code : Nat) (reply : Bool) (status tag bodyLen : Nat) :
    (controlHeader code reply status tag bodyLen).length = 8 := by
  simp [controlHeader]

/-- Header and body within the octets that the integrity tag covers. -/
theorem covered_parts {f header body : Bytes} {off : Nat} (hh : header.length = 8)
    (hc : slice f off (8 + body.length) = header ++ body) : slice f off 8 = header ∧ slice f (off + 8) body.length = body := by
  constructor
  · rw [← Nat.add_zero off, ← slice_slice f off (n := 8 + body.length) (by omega), hc]
    exact slice_append (a := []) body rfl hh
  · rw [← slice_slice f off (n := 8 + body.length) (Nat.le_refl _), hc]
    simpa using slice_append (a := header) (b := body) [] hh rfl

theorem tagOctets_length {f : Bytes} (h : 60 ≤ f.length) : (tagOctets f).length = if isTagged f then 4 else 0 := by
  unfold tagOctets
  split
  · exact slice_length (by omega)
  · rfl

/-- The 802.1Q tag is echoed (R157). -/
theorem tagOctets_eq (f : Bytes) : tagOctets f = slice f 12 (if isTagged f then 4 else 0) := by
  unfold tagOctets
  split <;> simp [slice]

/-- Settles O44: a response is the control-origin frame of its header and body, whose parts stand where
`controlFrame_dest` and the lemmas after it say. -/
theorem responseLayout : Obligations.ResponseLayout := by
  unfold Obligations.ResponseLayout
  intro s c st body hc r t used
  let header := controlHeader (ctlCode c.frame) true st.code (ctlTag c.frame) body.length
  have hr : r = controlFrame s (sourceOf c.frame) (tagOctets c.frame) (header ++ body) := rfl
  have ht : (tagOctets c.frame).length = t := tagOctets_length hc
  have hh : header.length = 8 := controlHeader_length _ _ _ _ _
  have hcov : (header ++ body).length = 8 + body.length := by rw [List.length_append, hh]
  have hused : 30 + (tagOctets c.frame).length + (header ++ body).length = used := by
    show _ = 38 + t + body.length
    omega
  have covered : slice r (14 + t) (8 + body.length) = header ++ body := by
    rw [hr, ← ht, ← hcov]
    exact controlFrame_covered _ _ _ _
  obtain ⟨hhead, hbody⟩ := covered_parts hh covered
  have integrity : slice r (22 + t + body.length) 16 = integrityTag s.ks.mgmtKey (header ++ body) := by
    have h := controlFrame_integrity s (sourceOf c.frame) (tagOctets c.frame) (header ++ body)
    rwa [ht, hcov, show 14 + t + (8 + body.length) = 22 + t + body.length by omega] at h
  refine ⟨?_, ?_, ?_, controlFrame_source _ _ _ _, ?_, ?_, hhead, ?_, fun hk => ?_, fun k hk => ?_⟩
  · rw [hr, controlFrame_length, hused]
  · rw [hr, ← hused]
    exact controlFrame_padding _ _ _ _
  · rw [hr, controlFrame_dest]
    exact macOctets_sourceOf (by omega)
  · have h := controlFrame_tag s (sourceOf c.frame) (tagOctets c.frame) (header ++ body)
    rw [ht] at h
    exact h.trans (tagOctets_eq _)
  · rw [hr, ← ht]
    exact controlFrame_type _ _ _ _
  · rwa [show 22 + t = 14 + t + 8 by omega]
  · rw [integrity, hk]
    rfl
  · rw [integrity, hk, covered]
    rfl

end Sys2Proof.Machine
end

section
/-! The Return Merge: the reception of a campus frame, the trunk transmitter and the trunk link state (O40, O41). -/

namespace Sys2Proof.Machine

variable {s t u : State}

/-! ### Replacements of a Return Merge -/

@[simp] theorem State.setMerge_setMerge (s : State) (l : Lane) (x y : ReturnMerge) :
    (s.setMerge l x).setMerge l y = s.setMerge l y := by
  simp [State.setMerge]

/-- The row of a start makes it at the Return Merge as it stands (R163). -/
theorem exec_trunkTransmitStart_setMerge (l : Lane) (s : State) (m : ReturnMerge) :
    exec (.trunkTransmitStart l) (s.setMerge l m) = .next (s.setMerge l (mergeStart m)) := by
  show Host.Outcome.next ((s.setMerge l m).setMerge l (mergeStart ((s.setMerge l m).mergeOf l))) = _
  rw [State.setMerge_mergeOf_same, State.setMerge_setMerge]

/-! ### When a record may leave (R190) -/

theorem noticeReady_iff (s : State) : noticeReady s = true ↔ ∃ r, s.notice.route = some r ∧ s.notice.queue ≠ [] ∧
    (s.mergeOf r.lane).linkUp = true ∧ placesUsed (s.mergeOf r.lane) < 16 := by
  unfold noticeReady
  cases s.notice.route with
  | none => simp
  | some r => cases s.notice.queue <;> simp [hasRoom_iff]

/-- Of a Return Merge the departure reads the link state and the places in use. -/
theorem noticeReady_setMerge {l : Lane} {m : ReturnMerge} (hl : m.linkUp = (s.mergeOf l).linkUp)
    (hp : placesUsed m = placesUsed (s.mergeOf l)) : noticeReady (s.setMerge l m) = noticeReady s := by
  have row : ∀ k, ((s.setMerge l m).mergeOf k).linkUp = (s.mergeOf k).linkUp ∧
      placesUsed ((s.setMerge l m).mergeOf k) = placesUsed (s.mergeOf k) := fun k => by
    rw [State.setMerge_mergeOf]
    split
    · next h => subst h; exact ⟨hl, hp⟩
    · exact ⟨rfl, rfl⟩
  rw [Bool.eq_iff_iff, noticeReady_iff, noticeReady_iff]
  simp only [row, State.setMerge_notice]

/-- A Return Merge whose link is DOWN makes no departure possible. -/
theorem noticeReady_of_linkDown {l : Lane} {m : ReturnMerge} (hl : m.linkUp = false)
    (h : noticeReady (s.setMerge l m) = true) : noticeReady s = true := by
  obtain ⟨r, hr, hq, hup, hroom⟩ := (noticeReady_iff _).1 h
  have other : r.lane ≠ l := fun e => by
    rw [e, State.setMerge_mergeOf_same, hl] at hup
    cases hup
  rw [State.setMerge_mergeOf_ne s m other] at hup hroom
  exact (noticeReady_iff s).2 ⟨r, hr, hq, hup, hroom⟩

/-- No record leaves in an event that does not make its departure possible. -/
theorem departNew_idle (h : noticeReady t = true → noticeReady s = true) : departNew s t = t := by
  unfold departNew noticeNew
  refine if_neg fun hn => ?_
  obtain ⟨hs, ht⟩ := Bool.and_eq_true_iff.1 hn
  rw [h ht] at hs
  cases hs

theorem departNew_empty (h : t.notice.queue = []) : departNew s t = t :=
  departNew_idle fun ht => by rw [noticeReady_empty h] at ht; cases ht

/-- With intake and Notice Queue empty the end of an event changes nothing. -/
theorem settle_nothing (hi : t.agent.intake = []) (hq : t.notice.queue = []) : settle s t = t :=
  (settle_empty s t hi).trans (departNew_empty hq)

/-! ### The rise of a device flag, case by case (R186 to R188) -/

theorem DeviceRiseHandled.already {f : DevFlag} (h : DeviceRiseHandled f u t)
    (hf : hasFlag u.notice.flags f.bit = true) : t = u := by
  simpa only [DeviceRiseHandled, hf, if_true] using h

/-- A flag that rises with its enable and the master enable set is taken by the Notice Unit. -/
theorem DeviceRiseHandled.enabled {f : DevFlag} (h : DeviceRiseHandled f u t) (hf : hasFlag u.notice.flags f.bit = false)
    (he : u.notice.master = true ∧ hasFlag u.notice.enables f.bit = true) :
    let n := { u.notice with flags := setFlag u.notice.flags f.bit }
    let d : NoticeRecord := ⟨.device f, 0#16, .direct, .undefined, 0#2, 0, 0, 0, u.ks.freeSlots⟩
    if 64 ≤ u.notice.queue.length then t = u.setNotice { n with owed := setFlag u.notice.owed f.bit }
    else if u.notice.queue = [] then exec .noticeDeparture (u.setNotice { n with queue := [d] }) = .next t
    else t = u.setNotice { n with queue := u.notice.queue ++ [d] } := by
  unfold DeviceRiseHandled at h
  rw [if_neg (Bool.eq_false_iff.1 hf), if_pos (Bool.and_eq_true_iff.2 he)] at h
  exact h

/-- Behind records that wait already the rise gives its DIRECT record. -/
theorem DeviceRiseHandled.queued {f : DevFlag} (h : DeviceRiseHandled f u t) (hf : hasFlag u.notice.flags f.bit = false)
    (he : u.notice.master = true ∧ hasFlag u.notice.enables f.bit = true) (hq : u.notice.queue ≠ [])
    (hl : u.notice.queue.length < 64) :
    t = u.setNotice { u.notice with
      flags := setFlag u.notice.flags f.bit, queue := u.notice.queue ++ [makeRecord (.device f) .direct u] } := by
  have h := h.enabled hf he
  simp only at h
  rwa [if_neg (Nat.not_le.2 hl), if_neg hq] at h

/-- A record alone in the Notice Queue leaves at once if it may. -/
theorem DeviceRiseHandled.departs {f : DevFlag} (h : DeviceRiseHandled f u t) (hf : hasFlag u.notice.flags f.bit = false)
    (he : u.notice.master = true ∧ hasFlag u.notice.enables f.bit = true) (hq : u.notice.queue = []) :
    exec .noticeDeparture (u.setNotice { u.notice with
      flags := setFlag u.notice.flags f.bit, queue := [makeRecord (.device f) .direct u] }) = .next t := by
  have h := h.enabled hf he
  simp only at h
  rwa [if_neg (by rw [hq]; decide), if_pos hq] at h

/-- A rise that finds 64 records sets its owed mark. -/
theorem DeviceRiseHandled.owes {f : DevFlag} (h : DeviceRiseHandled f u t) (hf : hasFlag u.notice.flags f.bit = false)
    (he : u.notice.master = true ∧ hasFlag u.notice.enables f.bit = true) (hl : 64 ≤ u.notice.queue.length) :
    t = u.setNotice { u.notice with
      flags := setFlag u.notice.flags f.bit, owed := setFlag u.notice.owed f.bit } := by
  have h := h.enabled hf he
  simp only at h
  rwa [if_pos hl] at h

theorem DeviceRiseHandled.disabled {f : DevFlag} (h : DeviceRiseHandled f u t) (hf : hasFlag u.notice.flags f.bit = false)
    (he : ¬(u.notice.master = true ∧ hasFlag u.notice.enables f.bit = true)) :
    t = u.setNotice { u.notice with flags := setFlag u.notice.flags f.bit } := by
  unfold DeviceRiseHandled at h
  rw [if_neg (Bool.eq_false_iff.1 hf), if_neg (mt Bool.and_eq_true_iff.1 he)] at h
  exact h

/-! ### The reception of a campus frame (R162) -/

theorem campusArrival_unsound (l : Lane) {rx : RxFrame} (s : State)
    (h : ¬(64 ≤ rx.octets.length ∧ rx.octets.length ≤ 9216 ∧ rx.ending = .good)) :
    campusArrival l rx s = s.setMerge l ((s.mergeOf l).count .relayErrors 1) := by
  refine if_neg fun hs => h ?_
  obtain ⟨hl, he⟩ := Bool.and_eq_true_iff.1 hs
  obtain ⟨h₁, h₂⟩ := (rxLengthOk_iff rx).1 hl
  exact ⟨h₁, h₂, eq_of_beq he⟩

theorem campusArrival_sound (l : Lane) {rx : RxFrame} (s : State)
    (h : 64 ≤ rx.octets.length ∧ rx.octets.length ≤ 9216 ∧ rx.ending = .good) :
    campusArrival l rx s = relayFrame l (rxBody rx) s := by
  obtain ⟨h₁, h₂, he⟩ := h
  exact if_pos (Bool.and_eq_true_iff.2 ⟨(rxLengthOk_iff rx).2 ⟨h₁, h₂⟩, beq_iff_eq.2 he⟩)

theorem relayFrame_linkDown {l : Lane} (f : Bytes) (h : (s.mergeOf l).linkUp = false) :
    relayFrame l f s = s.setMerge l ((s.mergeOf l).count .relayDrops 1) := if_pos (by rw [h]; rfl)

theorem relayFrame_joins {l : Lane} {f : Bytes} (h : (s.mergeOf l).linkUp = true)
    (hf : relayOccupancy (s.mergeOf l) + f.length ≤ 65536) :
    relayFrame l f s = s.setMerge l (mergeRelay f (s.mergeOf l)) := by
  have hu : ¬(!(s.mergeOf l).linkUp) = true := by rw [h]; decide
  exact (if_neg hu).trans (if_pos hf)

theorem relayFrame_full {l : Lane} {f : Bytes} (h : (s.mergeOf l).linkUp = true)
    (hf : 65536 < relayOccupancy (s.mergeOf l) + f.length) :
    relayFrame l f s = raiseDevice .relayDrop (s.setMerge l ((s.mergeOf l).count .relayDrops 1)) := by
  have hu : ¬(!(s.mergeOf l).linkUp) = true := by rw [h]; decide
  exact (if_neg hu).trans (if_neg (Nat.not_le.2 hf))

theorem mergeRelay_linkUp (f : Bytes) (m : ReturnMerge) : (mergeRelay f m).linkUp = m.linkUp := mergeStart_linkUp _

theorem mergeRelay_placesUsed (f : Bytes) (m : ReturnMerge) : placesUsed (mergeRelay f m) = placesUsed m :=
  mergeStart_placesUsed _

/-- A frame that joins takes its octets of the Relay FIFO. -/
theorem mergeRelay_relayOccupancy (f : Bytes) (m : ReturnMerge) :
    relayOccupancy (mergeRelay f m) = relayOccupancy m + f.length := by
  have h : octetCount (m.relay ++ [f]) = octetCount m.relay + f.length := by
    rw [octetCount_append, octetCount_cons]; rfl
  rw [mergeRelay, mergeStart_relayOccupancy]
  simp only [relayOccupancy, h]
  omega

theorem noticeReady_count (s : State) (l : Lane) (c : MergeCounter) (k : Nat) :
    noticeReady (s.setMerge l ((s.mergeOf l).count c k)) = noticeReady s :=
  noticeReady_setMerge (m := (s.mergeOf l).count c k) rfl rfl

/-- A count at a Return Merge lets no record leave. -/
theorem departNew_count (s : State) (l : Lane) (c : MergeCounter) (k : Nat) :
    departNew s (s.setMerge l ((s.mergeOf l).count c k)) = s.setMerge l ((s.mergeOf l).count c k) :=
  departNew_idle fun h => (noticeReady_count s l c k).symm.trans h

/-- A relayed frame lets no record leave. -/
theorem departNew_relayed (s : State) (l : Lane) (f : Bytes) :
    departNew s (s.setMerge l (mergeRelay f (s.mergeOf l))) = s.setMerge l (mergeRelay f (s.mergeOf l)) :=
  departNew_idle fun h => (noticeReady_setMerge (mergeRelay_linkUp _ _) (mergeRelay_placesUsed _ _)).symm.trans h

/-- Settles O40: the branches of the reception one by one; the rise of RELAY_DROP is handled as `departNew_device` says. -/
theorem campusFrameReception : Obligations.CampusFrameReception := by
  unfold Obligations.CampusFrameReception
  intro l rx s n f m sound
  refine ⟨departNew s (campusArrival l rx s), rfl, fun h => ?_, fun h hd => ?_, fun h hu hf => ?_, fun h hu hf => ?_⟩
  · rw [campusArrival_unsound l s h]
    exact departNew_count s l _ 1
  · rw [campusArrival_sound l s h, relayFrame_linkDown _ hd]
    exact departNew_count s l _ 1
  · have e : campusArrival l rx s = s.setMerge l (mergeRelay f m) := (campusArrival_sound l s h).trans (relayFrame_joins hu hf)
    rw [e, departNew_relayed, exec_trunkTransmitStart_setMerge, State.setMerge_mergeOf_same]
    exact ⟨rfl, mergeRelay_relayOccupancy f m⟩
  · let u := s.setMerge l (m.count .relayDrops 1)
    have e : campusArrival l rx s = raiseDevice .relayDrop u := (campusArrival_sound l s h).trans (relayFrame_full hu hf)
    have rise : DeviceRiseHandled .relayDrop u (departNew u (raiseDevice .relayDrop u)) := departNew_device _ rfl rfl rfl
    rw [e, departNew_congr (noticeReady_count s l .relayDrops 1).symm]
    refine ⟨(raiseDevice_settled _ u).trans (departNew_settled _ _), ?_, ?_, rise.already,
      fun hc => ⟨rise.disabled hc, rise.queued hc, rise.departs hc, rise.owes hc⟩⟩
    · rw [(departNew_merge _ _ l).1, State.mergeOf, raiseDevice_merge]
      exact congrArg ReturnMerge.counters (State.setMerge_mergeOf_same s l _)
    · rw [departNew_flags]
      exact raiseDevice_flag _ _

/-! ### The trunk transmitter (R163) -/

theorem mergeStart_control {m : ReturnMerge} {f : ControlFrame} {rest : List ControlFrame} (hu : m.linkUp = true)
    (hs : m.sending = none) (hc : m.control = f :: rest) :
    mergeStart m = { m with control := rest, sending := some (.control f) } := by
  simp [mergeStart, hu, hs, hc]

theorem mergeStart_relayed {m : ReturnMerge} {f : Bytes} {rest : List Bytes} (hu : m.linkUp = true)
    (hs : m.sending = none) (hc : m.control = []) (hr : m.relay = f :: rest) :
    mergeStart m = { m with relay := rest, sending := some (.relayed f) } := by
  simp [mergeStart, hu, hs, hc, hr]

theorem mergeEnd_control {m : ReturnMerge} {f : ControlFrame} (h : m.sending = some (.control f)) :
    mergeEnd m = mergeStart (({ m with sending := none } : ReturnMerge).count .controlSent 1) := by
  simp [mergeEnd, h]

theorem mergeEnd_relayed {m : ReturnMerge} {f : Bytes} (h : m.sending = some (.relayed f)) :
    mergeEnd m = mergeStart (({ m with sending := none } : ReturnMerge).count .relayedFrames 1) := by
  simp [mergeEnd, h]

/-- The end of a transmission starts the next one as its row does, and the event then ends. -/
theorem exec_trunkTransmitEnd_settled {l : Lane} {m : ReturnMerge} (h : mergeEnd (s.mergeOf l) = mergeStart m) :
    ∃ v t, exec (.trunkTransmitStart l) (s.setMerge l m) = .next v ∧ exec (.trunkTransmitEnd l) s = .next t ∧
      Settled v t := by
  refine ⟨_, _, exec_trunkTransmitStart_setMerge l s m, rfl, ?_⟩
  rw [h]
  exact settle_settled _ _

/-- Where nothing waits at the agent or the Notice Unit the event is the start alone. -/
theorem exec_trunkTransmitEnd_quiet {l : Lane} {m : ReturnMerge} (hi : s.agent.intake = []) (hq : s.notice.queue = [])
    (h : mergeEnd (s.mergeOf l) = mergeStart m) :
    exec (.trunkTransmitEnd l) s = exec (.trunkTransmitStart l) (s.setMerge l m) := by
  rw [exec_trunkTransmitStart_setMerge, ← h]
  exact congrArg Host.Outcome.next (settle_nothing (t := s.setMerge l _) hi hq)

/-! ### The trunk link state (R164) -/

theorem mergeDown_up {m : ReturnMerge} (h : m.linkUp = true) : mergeDown m =
    ((({ m with control := [], relay := [], sending := none, linkUp := false } : ReturnMerge).count .controlDiscards
      (lostControl m).length).count .noticeDiscards ((lostControl m).filter ControlFrame.notice).length).count
        .relayDrops (lostRelayed m) := if_pos h

theorem mergeUp_down {m : ReturnMerge} (h : m.linkUp = false) : mergeUp m = mergeStart { m with linkUp := true } :=
  if_neg (Bool.eq_false_iff.1 h)

/-- The frames lost with the link are the control-origin frames. -/
theorem lostControl_perm (m : ReturnMerge) : (lostControl m).Perm (controlOrigin m) := List.perm_append_comm

/-- A link that goes down makes no departure possible, so with an empty intake its event discards the lane's frames alone. -/
theorem exec_trunkLinkDown_quiet {l : Lane} (h : (s.mergeOf l).linkUp = true) (hi : s.agent.intake = []) :
    exec (.trunkLinkDown l) s = .next (s.setMerge l (mergeDown (s.mergeOf l))) := by
  have down : (mergeDown (s.mergeOf l)).linkUp = false := by rw [mergeDown_up h]; rfl
  let t := s.setMerge l (mergeDown (s.mergeOf l))
  have idle : departNew s t = t := departNew_idle (noticeReady_of_linkDown down)
  exact congrArg Host.Outcome.next ((settle_empty s t hi).trans idle)

/-- Settles O41: the start, the end of a transmission and the two reports of the link, each by the lemmas about the Return
Merge it changes. -/
theorem trunkTransmitter : Obligations.TrunkTransmitter := by
  unfold Obligations.TrunkTransmitter
  refine ⟨fun l s f rest hu hs hc => ?_, fun l s f rest hu hs hc hr => ?_, fun l s hi hq => ⟨fun f hf => ?_, fun f hf => ?_⟩,
    fun l s => ⟨fun f hf => ?_, fun f hf => ?_⟩, fun l s hu hi => ?_, fun l s hd => ⟨fun hq => ?_, ?_⟩⟩
  · rw [← mergeStart_control hu hs hc]
    rfl
  · rw [← mergeStart_relayed hu hs hc hr]
    rfl
  · exact exec_trunkTransmitEnd_quiet hi hq (mergeEnd_control hf)
  · exact exec_trunkTransmitEnd_quiet hi hq (mergeEnd_relayed hf)
  · exact exec_trunkTransmitEnd_settled (mergeEnd_control hf)
  · exact exec_trunkTransmitEnd_settled (mergeEnd_relayed hf)
  · have lost := lostControl_perm (s.mergeOf l)
    refine ⟨_, exec_trunkLinkDown_quiet hu hi, ?_⟩
    rw [State.setMerge_mergeOf_same, mergeDown_up hu, ← lost.length_eq, ← (lost.filter _).length_eq]
    exact ⟨rfl, rfl, rfl, rfl, rfl, rfl⟩
  · rw [exec_trunkTransmitStart_setMerge, ← mergeUp_down hd]
    exact congrArg Host.Outcome.next (departNew_empty (t := s.setMerge l _) hq)
  · refine ⟨_, _, exec_trunkTransmitStart_setMerge l s _, rfl, ?_⟩
    rw [mergeUp_down hd]
    exact departNew_settled _ _

end Sys2Proof.Machine
end

section
/-! The departure of a notice record, and the owed mark that takes its place (O42). -/

namespace Sys2Proof.Machine

variable {s : State}

/-! ### Flag sets (R165) -/

theorem hasFlag_zero (n i : Nat) : hasFlag (0#n) i = false := BitVec.getLsbD_zero

theorem hasFlag_clearFlag {n : Nat} (set : BitVec n) (i : Nat) : hasFlag (clearFlag set i) i = false := by
  by_cases h : i < n <;> simp [hasFlag, clearFlag, h]

/-- A flag other than the one cleared is as it was. -/
theorem hasFlag_clearFlag_ne {n i j : Nat} (set : BitVec n) (h : j ≠ i) : hasFlag (clearFlag set i) j = hasFlag set j := by
  by_cases hj : j < n
  · have hi : (BitVec.twoPow n i).getLsbD j = false := by simp [h.symm]
    simp only [hasFlag, clearFlag, BitVec.getLsbD_and, BitVec.getLsbD_not, hj, hi]
    simp
  · have out : ∀ x : BitVec n, x.getLsbD j = false := fun x => BitVec.getLsbD_of_ge x j (Nat.not_lt.1 hj)
    exact (out _).trans (out _).symm

/-- The order of R189 runs from the highest bit down. -/
theorem DevFlag.all_bit (f : DevFlag) : DevFlag.all[5 - f.bit]? = some f := by cases f <;> rfl

theorem DevFlag.bit_injective {f g : DevFlag} (h : f.bit = g.bit) : f = g :=
  Option.some.inj ((DevFlag.all_bit f).symm.trans (h ▸ DevFlag.all_bit g))

/-! ### The first owed mark (R189) -/

theorem find?_first {α : Type} {p : α → Bool} {l before after : List α} {f : α} (hl : l = before ++ f :: after)
    (hb : ∀ g ∈ before, p g = false) (hf : p f = true) : l.find? p = some f :=
  List.find?_eq_some_iff_append.2 ⟨hf, before, after, hl, fun g hg => by rw [hb g hg]; rfl⟩

theorem firstCtxFlag_zero (fs : List CtxFlag) : firstCtxFlag 0#8 fs = none :=
  List.find?_eq_none.2 fun f _ => by simp [hasFlag_zero]

theorem firstOwed_none {rs : List Ctx} (h : ∀ r ∈ rs, r.owed = 0#8) (k : Nat) : firstOwed rs k = none := by
  induction rs generalizing k with
  | nil => rfl
  | cons r rs ih =>
    obtain ⟨hr, hrs⟩ := List.forall_mem_cons.1 h
    rw [firstOwed, hr, firstCtxFlag_zero]
    exact ih hrs (k + 1)

/-- The first context that owes a mark, counted from number `k`. -/
theorem firstOwed_first {rs : List Ctx} {n : Nat} {f : CtxFlag} (hn : n < rs.length) (k : Nat)
    (hb : ∀ j (h : j < n), (rs[j]'(Nat.lt_trans h hn)).owed = 0#8) (hf : firstCtxFlag rs[n].owed CtxFlag.all = some f) :
    firstOwed rs k = some (k + n, f) := by
  induction rs generalizing n k with
  | nil => cases hn
  | cons r rs ih =>
    cases n with
    | zero =>
      have hr : firstCtxFlag r.owed CtxFlag.all = some f := hf
      rw [firstOwed, hr]
      rfl
    | succ n =>
      have hr : r.owed = 0#8 := hb 0 (Nat.succ_pos n)
      have hn' : n < rs.length := Nat.lt_of_succ_lt_succ hn
      have rest := ih hn' (k + 1) (fun j h => hb (j + 1) (Nat.succ_lt_succ h)) hf
      rw [firstOwed, hr, firstCtxFlag_zero]
      simp only [rest]
      rw [Nat.add_assoc, Nat.add_comm 1 n]

theorem devOwed_none (h : s.notice.owed = 0#6) : DevFlag.all.find? (fun f => hasFlag s.notice.owed f.bit) = none :=
  List.find?_eq_none.2 fun f _ => by simp [h, hasFlag_zero]

/-- A place that no mark waits for stays free. -/
theorem takeOwed_nothing (hd : s.notice.owed = 0#6) (hc : ∀ c, (s.ctx c).owed = 0#8) : takeOwed s = s := by
  have h : firstOwed s.ctxs.toList 0 = none := firstOwed_none (fun r hr => by
    obtain ⟨c, hc', rfl⟩ := List.mem_iff_getElem.1 hr
    simpa [State.ctx, look] using hc ⟨c, by simpa using hc'⟩) 0
  simp only [takeOwed, devOwed_none hd, h]

/-- The place goes to the first device mark. -/
theorem takeOwed_device {f : DevFlag} {before after : List DevFlag} (hl : DevFlag.all = before ++ f :: after)
    (hb : ∀ g ∈ before, hasFlag s.notice.owed g.bit = false) (hf : hasFlag s.notice.owed f.bit = true) :
    takeOwed s = queueRecord (makeRecord (.device f) .owed s)
      (s.setNotice { s.notice with owed := clearFlag s.notice.owed f.bit }) := by
  have h : DevFlag.all.find? (fun f => hasFlag s.notice.owed f.bit) = some f := find?_first hl hb hf
  simp only [takeOwed, h]
  rfl

/-- With no device mark the place goes to the first mark of the lowest context that has one. -/
theorem takeOwed_context {c : CtxIx} {f : CtxFlag} {before after : List CtxFlag} (hd : s.notice.owed = 0#6)
    (hc : ∀ d : CtxIx, d.val < c.val → (s.ctx d).owed = 0#8) (hl : CtxFlag.all = before ++ f :: after)
    (hb : ∀ g ∈ before, hasFlag (s.ctx c).owed g.bit = false) (hf : hasFlag (s.ctx c).owed f.bit = true) :
    takeOwed s = queueRecord ⟨.context c f, (s.ctx c).generation, .owed, (s.ctx c).state, (s.ctx c).phase, (s.ctx c).nextPn,
        (s.ctx c).blocks, (s.ctx c).age, s.ks.freeSlots⟩
      (s.setCtx c { s.ctx c with owed := clearFlag (s.ctx c).owed f.bit }) := by
  have h : firstOwed s.ctxs.toList 0 = some (c.val, f) := by
    have hn : c.val < s.ctxs.toList.length := by simp
    have first : firstCtxFlag (s.ctx c).owed CtxFlag.all = some f := find?_first hl hb hf
    have e := firstOwed_first hn 0 (fun j hj => by simpa [State.ctx, look] using hc ⟨j, Nat.lt_trans hj c.isLt⟩ hj)
      (by simpa [State.ctx, look] using first)
    rwa [Nat.zero_add] at e
  simp only [takeOwed, devOwed_none hd, h, indexOf_val, makeRecord, State.setCtx_ctx_same, State.setCtx_ks]

theorem takeOwed_sequence (s : State) : (takeOwed s).notice.sequence = s.notice.sequence := by
  unfold takeOwed
  repeat' split
  all_goals rfl

/-! ### The departure (R190, R191) -/

/-- The head record has left, and its place is still free. -/
def departed (s : State) (r : NoticeRoute) (n : NoticeRecord) (rest : List NoticeRecord) : State :=
  (s.setNotice { s.notice with queue := rest, sequence := s.notice.sequence + 1 }).setMerge r.lane
    (mergeEnter ⟨noticeFrame s r n, true⟩ (s.mergeOf r.lane))

theorem depart_eq {r : NoticeRoute} {n : NoticeRecord} {rest : List NoticeRecord} (hr : s.notice.route = some r)
    (hq : s.notice.queue = n :: rest) (hl : (s.mergeOf r.lane).linkUp = true) (hp : placesUsed (s.mergeOf r.lane) < 16) :
    depart s = takeOwed (departed s r n rest) := by
  have ready : noticeReady s = true := (noticeReady_iff s).2 ⟨r, hr, by rw [hq]; exact List.cons_ne_nil _ _, hl, hp⟩
  unfold depart
  split
  · next r' n' rest' hr' hq' =>
    obtain rfl := Option.some.inj (hr.symm.trans hr')
    obtain ⟨rfl, rfl⟩ := List.cons.inj (hq.symm.trans hq')
    exact if_pos ready
  · next none_ready => exact absurd hq (none_ready r n rest hr)

/-- The notice frame is the last control-origin frame of the route's lane. -/
theorem takeOwed_departed_controlOrigin (s : State) (r : NoticeRoute) (n : NoticeRecord) (rest : List NoticeRecord) :
    controlOrigin ((takeOwed (departed s r n rest)).mergeOf r.lane) =
      controlOrigin (s.mergeOf r.lane) ++ [⟨noticeFrame s r n, true⟩] := by
  have h : (takeOwed (departed s r n rest)).mergeOf r.lane = mergeEnter ⟨noticeFrame s r n, true⟩ (s.mergeOf r.lane) := by
    rw [State.mergeOf, takeOwed_merge]
    exact State.setMerge_mergeOf_same _ _ _
  rw [h, mergeEnter_controlOrigin]

/-! ### The notice frame (R191, R196) -/

/-- The delivery field. -/
def Delivery.code : Delivery → Nat
  | .direct => 0
  | .owed => 1

theorem NoticeRecord.octets_eq (n : NoticeRecord) : n.octets =
    octetsOf 2 n.source.code ++ octetsOf 2 n.generation.toNat ++ n.source.flagOctet ++ octetsOf 1 n.delivery.code ++
      octetsOf 1 n.state.code ++ octetsOf 1 n.phase.toNat ++ octetsOf 4 n.nextPn ++ octetsOf 6 n.blocks ++
      octetsOf 2 n.age ++ octetsOf 2 n.freeSlots := rfl

theorem NoticeSource.flagOctet_length (x : NoticeSource) : x.flagOctet.length = 1 := by
  cases x with
  | context c f => rfl
  | device f => rfl

theorem NoticeRecord.octets_length (n : NoticeRecord) : n.octets.length = 22 := by
  simp [NoticeRecord.octets_eq, NoticeSource.flagOctet_length]

/-- The header of a notice frame, which carries the notice sequence as its request tag. -/
def noticeHeader (s : State) : Bytes := controlHeader 0x7F false 0 s.notice.sequence.toNat 22

theorem noticeFrame_eq (s : State) (r : NoticeRoute) (n : NoticeRecord) :
    noticeFrame s r n = controlFrame s r.address [] (noticeHeader s ++ n.octets) := by
  rw [noticeFrame, NoticeRecord.octets_length]
  rfl

theorem noticeCovered_length (s : State) (n : NoticeRecord) : (noticeHeader s ++ n.octets).length = 30 := by
  rw [List.length_append, NoticeRecord.octets_length, noticeHeader, controlHeader_length]

/-- Header, body and integrity tag fill the 60 octets, so that no padding follows. -/
theorem noticeFrame_length (s : State) (r : NoticeRoute) (n : NoticeRecord) : (noticeFrame s r n).length = 60 := by
  rw [noticeFrame_eq, controlFrame_length, noticeCovered_length]
  rfl

theorem noticeFrame_covered (s : State) (r : NoticeRoute) (n : NoticeRecord) :
    slice (noticeFrame s r n) 14 30 = noticeHeader s ++ n.octets := by
  have h := controlFrame_covered s r.address [] (noticeHeader s ++ n.octets)
  rwa [noticeCovered_length, ← noticeFrame_eq] at h

theorem noticeFrame_parts (s : State) (r : NoticeRoute) (n : NoticeRecord) :
    slice (noticeFrame s r n) 14 8 = noticeHeader s ∧ slice (noticeFrame s r n) 22 22 = n.octets := by
  have h := noticeFrame_covered s r n
  have hp := covered_parts (off := 14) (controlHeader_length _ _ _ _ _) (by rwa [NoticeRecord.octets_length])
  rwa [NoticeRecord.octets_length] at hp

theorem noticeFrame_integrity (s : State) (r : NoticeRoute) (n : NoticeRecord) :
    slice (noticeFrame s r n) 44 16 = integrityTag s.ks.mgmtKey (slice (noticeFrame s r n) 14 30) := by
  have h := controlFrame_integrity s r.address [] (noticeHeader s ++ n.octets)
  rwa [noticeCovered_length, ← noticeFrame_eq, ← noticeFrame_covered s r n] at h

/-- Settles O42: the frame by the layout of a control-origin frame, the place by the three lemmas `takeOwed_nothing`,
`takeOwed_device` and `takeOwed_context`. -/
theorem noticeDeparts : Obligations.NoticeDeparts := by
  unfold Obligations.NoticeDeparts
  refine ⟨fun s r n rest hr hq hl hp => ?_, fun s r n rest hr hq hl hp => ?_⟩
  · intro source flag delivery state body
    have hsource : octetsOf 2 n.source.code = source := by
      simp only [source]
      cases n.source with
      | context c f => rfl
      | device f => rfl
    have hflag : n.source.flagOctet = octetsOf 1 flag := by
      simp only [flag]
      cases n.source with
      | context c f => cases f <;> rfl
      | device f => cases f <;> rfl
    have hdelivery : n.delivery.code = delivery := by
      simp only [delivery]
      cases n.delivery <;> rfl
    have hstate : n.state.code = state := by
      simp only [state]
      cases n.state <;> rfl
    have hbody : n.octets = body := by rw [NoticeRecord.octets_eq, hsource, hflag, hdelivery, hstate]
    have hd := depart_eq hr hq hl hp
    obtain ⟨hhead, hrec⟩ := noticeFrame_parts s r n
    have tag := noticeFrame_integrity s r n
    refine ⟨hbody ▸ n.octets_length, depart s, noticeFrame s r n, rfl, depart_settled s, ?_, depart_agent s, ?_,
      noticeFrame_length s r n, ?_, ?_, ?_, hhead, hbody ▸ hrec, fun hk => ?_, fun k hk => ?_, fun ho hc => ?_⟩
    · rw [hd, takeOwed_sequence]
      rfl
    · rw [hd, takeOwed_departed_controlOrigin]
    · exact controlFrame_dest _ _ _ _
    · exact controlFrame_source _ _ _ _
    · exact controlFrame_type _ _ [] _
    · rw [tag, hk]
      rfl
    · rw [tag, hk]
      rfl
    · rw [hd, takeOwed_nothing (s := departed s r n rest) ho hc]
      exact ⟨rfl, rfl⟩
  · have hd := depart_eq hr hq hl hp
    refine ⟨fun f before after ha hb hf => ?_, fun c f before after ho hc ha hb hf => ?_⟩
    · have e := hd.trans (takeOwed_device (s := departed s r n rest) ha hb hf)
      refine ⟨_, congrArg Host.Outcome.next e, rfl, hasFlag_clearFlag _ _, fun g hg => ?_, rfl⟩
      exact hasFlag_clearFlag_ne _ fun h => hg (DevFlag.bit_injective h)
    · have e := hd.trans (takeOwed_context (s := departed s r n rest) ho hc ha hb hf)
      have row : ∀ d, (depart s).ctx d = 
          if d = c then { s.ctx c with owed := clearFlag (s.ctx c).owed f.bit } else s.ctx d := fun d => by
        rw [e]
        exact State.setCtx_ctx (departed s r n rest) c d _
      refine ⟨depart s, rfl, by rw [e]; rfl, ?_, fun g hg => ?_, fun d hdc => ?_⟩
      · rw [row, if_pos rfl]
        exact hasFlag_clearFlag _ _
      · rw [row, if_pos rfl]
        exact hasFlag_clearFlag_ne _ fun h => hg (CtxFlag.bit_injective h)
      · rw [row, if_neg hdc]

end Sys2Proof.Machine
end

section
/-! COMMAND_BEGIN: checks 1 to 4, the begin of the head of intake, and the heads that are discarded (O43). -/

namespace Sys2Proof.Machine

variable {s s₀ t u v : State}

/-! ### Command codes and body lengths (chapter 10) -/

/-- The body length of each command while the management key is SET or UNSET. -/
def commandLengths (provisioned : Bool) : List (Nat × Nat) :=
  commandTable.map (fun e => (e.1, if e.1 = 0x03 ∧ provisioned = true then 40 else e.2))

/-- No code stands twice in the table. -/
theorem commandTable_find : ∀ e ∈ commandTable, commandTable.find? (fun d => d.1 == e.1) = some e := by decide

theorem isCommandCode_iff (code : Nat) : isCommandCode code = true ↔ ∃ e ∈ commandTable, e.1 = code := by
  simp only [isCommandCode, List.any_eq_true, beq_iff_eq]

theorem requiredLen_entry {e : Nat × Nat} (h : e ∈ commandTable) :
    requiredLen s e.1 = if e.1 = 0x03 ∧ s.ks.mgmtKey.isSome = true then 40 else e.2 := by
  simp only [requiredLen, commandTable_find e h, Bool.and_eq_true, decide_eq_true_eq, Option.map_some, Option.getD_some]

theorem mem_commandLengths (code len : Nat) :
    (code, len) ∈ commandLengths s.ks.mgmtKey.isSome ↔ isCommandCode code = true ∧ len = requiredLen s code := by
  rw [isCommandCode_iff, commandLengths, List.mem_map]
  constructor
  · rintro ⟨e, he, hx⟩
    obtain ⟨rfl, rfl⟩ := Prod.mk.inj hx
    exact ⟨⟨e, he, rfl⟩, (requiredLen_entry he).symm⟩
  · rintro ⟨⟨e, he, rfl⟩, rfl⟩
    exact ⟨e, he, by rw [requiredLen_entry he]⟩

theorem known_iff (code : Nat) : (∃ n, (code, n) ∈ commandLengths s.ks.mgmtKey.isSome) ↔ isCommandCode code = true := by
  simp only [mem_commandLengths, exists_and_left, exists_eq, and_true]

/-! ### Checks 1 to 4 of R154 -/

theorem commonChecks_unknown {code : Nat} (len : Nat) (h : isCommandCode code = false) :
    commonChecks s code len = some .badCode := by
  simp [commonChecks, h]

/-- Checks 2 to 4 of a known code, in order. -/
theorem commonChecks_known {code : Nat} (len : Nat) (h : isCommandCode code = true) : commonChecks s code len =
    if (code = 0x42 ∨ code = 0x40 ∨ code = 0x03) ∧ s.ks.zeroizeHeld = true then some .zeroizeHeld
    else if s.ks.mgmtKey = none ∧ code ≠ 0x01 ∧ code ≠ 0x03 then some .notProvisioned
    else if (code = 0x03 ∧ s.ks.mgmtKey.isSome = true ∧ s.mkOnce = true) ∨ len = requiredLen s code then none
    else some .badLength := by
  unfold commonChecks
  rw [h, if_neg (by decide)]
  refine ite_congr (by simp [or_assoc]) (fun _ => rfl) fun _ =>
    ite_congr (by simp [and_assoc]) (fun _ => rfl) fun _ => ?_
  by_cases hl : code = 0x03 ∧ s.ks.mgmtKey.isSome = true ∧ s.mkOnce = true
  · rw [if_pos (by simpa [and_assoc] using hl), if_pos (.inl hl)]
  · rw [if_neg (by simpa [and_assoc] using hl)]
    by_cases hn : len = requiredLen s code
    · rw [if_neg (by simpa using hn), if_pos (.inr hn)]
    · rw [if_pos (by simpa using hn), if_neg (not_or.2 ⟨hl, hn⟩)]

/-! ### The begin of the only frame of intake (R153, R154) -/

/-- The only frame of intake has left it, and the place of its response is reserved. -/
def placeReserved (g : IntakeFrame) (s : State) : State :=
  (s.setAgent { s.agent with intake := [], serial := s.agent.serial + 1 }).setMerge g.lane
    { s.mergeOf g.lane with reserved := true }

/-- The agent as it begins the only frame of intake with a part held. -/
def busyAgent (g : IntakeFrame) (part : Option Bytes) (a : Agent) : Agent :=
  { a with intake := [], serial := a.serial + 1, progress := some ⟨g.lane, g.frame, a.serial + 1, .begun part⟩ }

/-- The agent's part as a command begins: BUSY, with an empty intake (R167, R197). -/
theorem agentPart_busyAgent (g : IntakeFrame) (part : Option Bytes) (a : Agent) : agentPart (busyAgent g part a) =
    [1#8, 0#8] ++ a.counters.octets ++ boolOctet a.counters.sat ++ macOctets a.address ++ octetsOf 2 a.envelopeType.toNat := by
  have none_waits : octetsOf 1 0 = [0#8] := by decide
  show boolOctet true ++ octetsOf 1 0 ++ a.counters.octets ++ boolOctet a.counters.sat ++ macOctets a.address ++
    octetsOf 2 a.envelopeType.toNat = _
  rw [none_waits]
  rfl

theorem beginHead_refused {g : IntakeFrame} {st : Status} (hg : s.agent.intake = [g])
    (hc : commonChecks s (ctlCode g.frame) (ctlBodyLen g.frame) = some st) :
    beginHead s = respond ⟨g.lane, g.frame, s.agent.serial + 1, .begun none⟩ st [] (placeReserved g s) := by
  simp only [beginHead, hg, hc]
  rfl

/-- A command that passes is the command in progress; a DEVICE_STATUS_READ holds the agent's part (R167). -/
theorem beginHead_passes {g : IntakeFrame} (hg : s.agent.intake = [g])
    (hc : commonChecks s (ctlCode g.frame) (ctlBodyLen g.frame) = none) :
    beginHead s = (placeReserved g s).setAgent (busyAgent g
      (if ctlCode g.frame = 0x02 then some (agentPart (busyAgent g none s.agent)) else none) s.agent) := by
  simp only [beginHead, hg, hc]
  split <;> rfl

theorem beginHead_notice (s : State) : (beginHead s).notice = s.notice := by
  unfold beginHead
  simp only
  repeat' split
  all_goals rfl

theorem placeReserved_settled (g : IntakeFrame) (s : State) :
    Settled (s.setAgent { s.agent with intake := [], serial := s.agent.serial + 1 }) (placeReserved g s) :=
  settled_merge _ _ _ rfl rfl fun _ => rfl

/-- A reservation counts nothing. -/
theorem placeReserved_counters (g : IntakeFrame) (s : State) (l : Lane) :
    ((placeReserved g s).mergeOf l).counters = (s.mergeOf l).counters := by
  rw [placeReserved, State.setMerge_mergeOf]
  split
  · next h => subst h; rfl
  · rfl

/-! ### A command refused at its begin -/

/-- With intake and Notice Queue empty an answer is the response alone. -/
theorem answer_quiet (c : Command) (st : Status) (body : Bytes) (hi : s.agent.intake = []) (hq : s.notice.queue = []) :
    answer s₀ c st body s = respond c st body s := by
  have hn : noticeNew s₀ s = false := by rw [noticeNew, noticeReady_empty hq, Bool.and_false]
  have hs : settle s₀ (respond c st body s) = respond c st body s :=
    settle_nothing (t := respond c st body s) hi hq
  rw [answer, hn, Bool.false_and, if_neg Bool.false_ne_true, hs]

/-- Effects beside the agent that leave what every Return Merge has counted do not touch the answer. -/
theorem Answered.of_counters {c : Command} {st : Status} {body : Bytes} (h : Settled u v) (ha : v.agent = u.agent)
    (hm : ∀ l, (v.mergeOf l).counters = (u.mergeOf l).counters) (k : Answered v c st body t) : Answered u c st body t where
  settled := h.trans k.settled
  response hl := by
    rw [← responseFrame_settled h]
    exact k.response ((h.linkUp c.lane).trans hl)
  idle hi := k.idle (by rw [ha]; exact hi)
  executed hi := by rw [k.executed (by rw [ha]; exact hi), ha]
  discarded hi l := by rw [k.discarded (by rw [ha]; exact hi) l, hm, h.linkUp]

/-- A command refused by checks 1 to 4 is answered and has no other effect (R154). -/
theorem beginHead_answered {g : IntakeFrame} {st : Status} (hg : s.agent.intake = [g]) (hq : s.notice.queue = [])
    (hc : commonChecks s (ctlCode g.frame) (ctlBodyLen g.frame) = some st) :
    Answered (s.setAgent { s.agent with intake := [], serial := s.agent.serial + 1 })
      ⟨g.lane, g.frame, s.agent.serial + 1, .begun none⟩ st [] (beginHead s) := by
  have k := answer_answered s ⟨g.lane, g.frame, s.agent.serial + 1, .begun none⟩ st [] (placeReserved g s)
  rw [answer_quiet (s := placeReserved g s) _ _ _ rfl hq, ← beginHead_refused hg hc] at k
  exact k.of_counters (placeReserved_settled g s) rfl (placeReserved_counters g s)

/-! ### The heads that are discarded (R153) -/

theorem saturates_iff (c k : Nat) : saturates c k = true ↔ counterMax < c + k := decide_eq_true_iff

/-- Two counts of one counter are the count of their sum, the mark included. -/
theorem CounterSet.bump_bump {n : Nat} (cs : CounterSet n) (i : Fin n) (j k : Nat) :
    (cs.bump i j).bump i k = cs.bump i (j + k) := by
  have hv : satAdd (satAdd (look cs.vals i) j) k = satAdd (look cs.vals i) (j + k) := by
    simp only [satAdd]
    omega
  have hs : (saturates (look cs.vals i) j || saturates (satAdd (look cs.vals i) j) k) = saturates (look cs.vals i) (j + k) := by
    rw [Bool.eq_iff_iff, Bool.or_eq_true, saturates_iff, saturates_iff, saturates_iff, satAdd]
    omega
  simp only [CounterSet.bump, look_put_same, put_put, hv, Bool.or_assoc, hs]

/-- The agent with `k` frames discarded and `fs` left in intake. -/
def withDiscards (fs : List IntakeFrame) (k : Nat) (a : Agent) : Agent := ({ a with intake := fs } : Agent).count .authFailures k

/-- What follows once the head of intake has been discarded. -/
def discardHead (rest : List IntakeFrame) (s : State) : State :=
  raiseDevice .authFail (s.setAgent (withDiscards rest 1 s.agent))

theorem purgeList_discards {f : IntakeFrame} {rest : List IntakeFrame} (hf : f.auth = false)
    (hk : s.ks.mgmtKey.isSome = true) : purgeList (f :: rest) s = purgeList rest (discardHead rest s) := by
  have h : (!f.auth && s.ks.mgmtKey.isSome) = true := by rw [hf, hk]; rfl
  exact if_pos h

theorem discardHead_agent (rest : List IntakeFrame) (s : State) : (discardHead rest s).agent = withDiscards rest 1 s.agent :=
  raiseDevice_agent _ _

theorem discardHead_mgmtKey (rest : List IntakeFrame) (s : State) : (discardHead rest s).ks.mgmtKey = s.ks.mgmtKey := by
  rw [discardHead, (raiseDevice_settled _ _).ks]
  rfl

/-- Unauthenticated frames are all discarded, each counted, and AUTH_FAIL stays set. -/
theorem purgeList_all {a : Agent} (fs : List IntakeFrame) (k : Nat) (hk : s.ks.mgmtKey.isSome = true)
    (hf : ∀ f ∈ fs, f.auth = false) (ha : s.agent = withDiscards fs k a)
    (hs : hasFlag s.notice.flags DevFlag.authFail.bit = true) :
    (purgeList fs s).agent = withDiscards [] (k + fs.length) a ∧
      hasFlag (purgeList fs s).notice.flags DevFlag.authFail.bit = true := by
  induction fs generalizing s k with
  | nil => exact ⟨ha, hs⟩
  | cons f fs ih =>
    obtain ⟨hf₁, hfs⟩ := List.forall_mem_cons.1 hf
    have next : (discardHead fs s).agent = withDiscards fs (k + 1) a := by
      rw [discardHead_agent, ha]
      simp only [withDiscards, Agent.count, CounterSet.bump_bump]
    have h := ih (s := discardHead fs s) (k + 1) (by rw [discardHead_mgmtKey]; exact hk) hfs next (raiseDevice_flag _ _)
    rw [purgeList_discards hf₁ hk, List.length_cons, Nat.add_comm fs.length 1, ← Nat.add_assoc]
    exact h

/-- An IDLE agent with a head to be discarded goes on with the next. -/
theorem purge_discards {f : IntakeFrame} {rest : List IntakeFrame} (hn : s.agent.progress = none)
    (hi : s.agent.intake = f :: rest) (hf : f.auth = false) (hk : s.ks.mgmtKey.isSome = true) :
    purge s = purgeList rest (discardHead rest s) := by
  rw [purge, hn, hi]
  exact purgeList_discards hf hk

/-- Where nothing is left in intake the agent begins nothing. -/
theorem settle_purged (h : (purge s).agent.intake = []) : settle s₀ s = departNew s₀ (purge s) := by
  have hr : agentReady (purge s) = false := by simp [agentReady, h]
  rw [settle, endLoop]
  exact if_neg (by rw [hr]; decide)

theorem commandBegin_discardsAll (hn : s.agent.progress = none) (hk : s.ks.mgmtKey.isSome = true)
    (hi : s.agent.intake ≠ []) (hf : ∀ f ∈ s.agent.intake, f.auth = false) :
    (commandBegin s).agent = withDiscards [] s.agent.intake.length s.agent ∧
      hasFlag (commandBegin s).notice.flags DevFlag.authFail.bit = true := by
  cases hl : s.agent.intake with
  | nil => exact absurd hl hi
  | cons f rest =>
    obtain ⟨hf₁, hrest⟩ := List.forall_mem_cons.1 (hl ▸ hf)
    obtain ⟨ha, hflag⟩ := purgeList_all (s := discardHead rest s) rest 1 (by rw [discardHead_mgmtKey]; exact hk) hrest
      (discardHead_agent rest s) (raiseDevice_flag _ _)
    rw [← purge_discards hn hl hf₁ hk] at ha hflag
    have e : commandBegin s = departNew s (purge s) := settle_purged (by rw [ha]; rfl)
    rw [e, departNew_agent, departNew_flags, ha, List.length_cons, Nat.add_comm]
    exact ⟨rfl, hflag⟩

/-! ### The frames that the end of an event looks at (R153) -/

theorem purgeList_intake (fs : List IntakeFrame) (h : s.agent.intake = fs) :
    (purgeList fs s).agent.intake.length ≤ fs.length := by
  induction fs generalizing s with
  | nil => exact Nat.le_of_eq (congrArg List.length h)
  | cons f fs ih =>
    unfold purgeList
    split
    · exact Nat.le_succ_of_le (ih (s := discardHead fs s) (by rw [discardHead_agent]; rfl))
    · exact Nat.le_of_eq (congrArg List.length h)

theorem purge_intake (s : State) : (purge s).agent.intake.length ≤ s.agent.intake.length := by
  unfold purge
  split
  · exact purgeList_intake _ rfl
  · exact Nat.le_refl _

/-- A begin takes the head of intake. -/
theorem beginHead_intake (s : State) : (beginHead s).agent.intake = s.agent.intake.tail := by
  unfold beginHead
  split
  · next h => rw [h]; rfl
  · next f rest h =>
    rw [h]
    simp only
    repeat' split
    all_goals rfl

theorem endLoop_step (n : Nat) (s₀ s : State) : endLoop (n + 1) s₀ s =
    if agentReady (purge s) then
      if noticeNew s₀ (purge s) && meetAtOneQueue (purge s) then
        if Config.noticeFirst (purge s).draws then agentRun (depart (drawn (purge s)))
        else endLoop n s₀ (beginHead (drawn (purge s)))
      else endLoop n s₀ (beginHead (purge s))
    else departNew s₀ (purge s) := rfl

/-- A bound on the frames looked at that exceeds the length of intake is no bound. -/
theorem endLoop_succ (n : Nat) (h : s.agent.intake.length < n) : endLoop (n + 1) s₀ s = endLoop n s₀ s := by
  induction n generalizing s with
  | zero => exact absurd h (Nat.not_lt_zero _)
  | succ n ih =>
    have shorter : ∀ x : State, agentReady x = true → x.agent.intake.length ≤ s.agent.intake.length →
        (beginHead x).agent.intake.length < n := fun x hr hx => by
      have hne : x.agent.intake ≠ [] := fun h => by simp [agentReady, h] at hr
      have hpos := List.length_pos_iff.2 hne
      rw [beginHead_intake, List.length_tail]
      omega
    rw [endLoop_step (n + 1) s₀ s, endLoop_step n s₀ s]
    split
    · next hr =>
      have hd : (beginHead (drawn (purge s))).agent.intake.length < n := shorter (drawn (purge s)) hr (purge_intake s)
      rw [ih hd, ih (shorter (purge s) hr (purge_intake s))]
    · rfl

theorem endLoop_congr (n : Nat) (h : purge s = purge t) : endLoop (n + 1) s₀ s = endLoop (n + 1) s₀ t := by
  rw [endLoop_step n s₀ s, endLoop_step n s₀ t, h]

/-- The end of an event begins with the discards, so states that they leave alike end alike. -/
theorem settle_of_purge {n : Nat} (hp : purge s = purge t) (ht : t.agent.intake.length ≤ n)
    (hs : s.agent.intake.length = n + 1) : settle s₀ s = endLoop (n + 1) s₀ t := by
  rw [settle, hs, endLoop_congr (n + 1) hp, endLoop_succ _ (Nat.lt_succ_of_le ht)]

/-- A head discarded without a rise leaves the event as if intake had begun with the next frame. -/
theorem commandBegin_discards {f : IntakeFrame} {rest : List IntakeFrame} (hn : s.agent.progress = none)
    (hk : s.ks.mgmtKey.isSome = true) (hi : s.agent.intake = f :: rest) (hf : f.auth = false)
    (hs : hasFlag s.notice.flags DevFlag.authFail.bit = true) :
    commandBegin s = commandBegin (s.setAgent (withDiscards rest 1 s.agent)) := by
  let v := s.setAgent (withDiscards rest 1 s.agent)
  have head : discardHead rest s = v := if_pos hs
  have idle : v.agent.progress.isNone = true := by
    rw [show v.agent.progress = s.agent.progress from rfl, hn]
    rfl
  have hp : purge s = purge v := by
    rw [purge_discards hn hi hf hk, head, purge, if_pos idle]
    rfl
  have hc : noticeReady s = noticeReady v := rfl
  calc settle s s = endLoop (rest.length + 1) s v := settle_of_purge hp (Nat.le_refl _) (by rw [hi]; rfl)
    _ = settle v v := settle_congr hc v

/-- Settles O43: the checks through `commonChecks_known`, the begin through `beginHead_answered` and `beginHead_passes`, the
discards through `purgeList_all`. -/
theorem commandBegins : Obligations.CommandBegins := by
  unfold Obligations.CommandBegins
  refine ⟨fun s f hn hi ha hr hq => ?_, fun s hn hk hi hf => ?_, fun s f rest hn hk hi hf hs => ?_⟩
  · intro code len lengths known fits c u keyCommand locked
    have hl : lengths = commandLengths s.ks.mgmtKey.isSome := by
      simp only [lengths]
      cases s.ks.mgmtKey with
      | none => rfl
      | some k => rfl
    have hknown : known ↔ isCommandCode code = true := by
      simp only [known, hl]
      exact known_iff code
    have hfits : known → (fits ↔ len = requiredLen s code) := fun hk => by
      simp only [fits, hl]
      exact (mem_commandLengths code len).trans (and_iff_right (hknown.1 hk))
    have checks := fun hk : known => commonChecks_known (s := s) len (hknown.1 hk)
    have keyed : s.ks.mgmtKey.isSome = true ∨ code = 0x01 ∨ code = 0x03 →
        ¬(s.ks.mgmtKey = none ∧ code ≠ 0x01 ∧ code ≠ 0x03) := fun h ⟨h₁, h₂, h₃⟩ => by
      rcases h with h | h | h
      · rw [h₁] at h; cases h
      · exact h₂ h
      · exact h₃ h
    have begun : commandBegin s = beginHead s := (settle_begins hi hn ha hr rfl).trans
      (departNew_empty (by rw [beginHead_notice]; exact hq))
    refine ⟨beginHead s, congrArg Host.Outcome.next begun, fun hu => ?_, fun hk hc hz => ?_, fun hk hz hm h₁ h₃ => ?_,
      fun hk hz hm hlock hfit => ?_, fun hk hz hm hpass => ?_⟩
    · exact beginHead_answered hi hq (commonChecks_unknown _ (Bool.eq_false_iff.2 (mt hknown.2 hu)))
    · exact beginHead_answered hi hq ((checks hk).trans (if_pos ⟨hc, hz⟩))
    · exact beginHead_answered hi hq ((checks hk).trans ((if_neg hz).trans (if_pos ⟨hm, h₁, h₃⟩)))
    · have hnot := not_or.2 ⟨hlock, mt (hfits hk).2 hfit⟩
      exact beginHead_answered hi hq ((checks hk).trans ((if_neg hz).trans ((if_neg (keyed hm)).trans (if_neg hnot))))
    · have hor := hpass.imp_right (hfits hk).1
      have e := beginHead_passes hi ((checks hk).trans ((if_neg hz).trans ((if_neg (keyed hm)).trans (if_pos hor))))
      refine ⟨⟨_, by rw [e]; rfl, rfl, rfl, ?_, fun h2 => ?_⟩, ?_, ?_, beginHead_settled s⟩
      · rw [e]
        exact if_pos rfl
      · rw [if_pos h2, agentPart_busyAgent]
        rfl
      · rw [e, State.setAgent_mergeOf, placeReserved, State.setMerge_mergeOf_same]
      · rw [e]
        rfl
  · obtain ⟨hagent, hflag⟩ := commandBegin_discardsAll hn hk hi hf
    exact ⟨_, rfl, settle_settled s s, hagent, hflag⟩
  · exact congrArg Host.Outcome.next (commandBegin_discards hn hk hi hf hs)

end Sys2Proof.Machine
end

section
/-! IDENTIFY, DEVICE_STATUS_READ and STATUS_SNAPSHOT (O45). -/

namespace Sys2Proof.Machine

variable {s : State}

/-! ### The identity record (R196) -/

/-- The identity record with its two one-octet constants in place. -/
theorem identityRecord_eq (s : State) :
    identityRecord s = octetsOf 2 0x4120 ++ [1#8, 4#8] ++ octetsOf 2 1024 ++ octetsOf 2 2304 ++ octetsOf 2 512 ++ [4#8] ++
      octetsOf 1 s.provLane.val ++ boolOctet s.mkOnce ++ boolOctet s.mkOnce ++ boolOctet s.ks.mgmtKey.isSome := rfl

/-! ### The Key Store's part (R87, R197) -/

/-- The octets of a table of four rows, row by row. -/
theorem flatten_map_four {α : Type} (v : Vector α 4) (f : α → Bytes) :
    (v.toList.map f).flatten = f (look v 0) ++ f (look v 1) ++ f (look v 2) ++ f (look v 3) := by
  rw [toList_eq_ofFn]
  simp [List.ofFn_succ]

/-- The Key Store's part with its four KEK entries written out. -/
theorem keyStorePart_eq (s : State) :
    keyStorePart s = boolOctet s.ks.mgmtKey.isSome ++ boolOctet s.mkOnce ++ boolOctet s.ks.zeroizeHeld ++
      boolOctet (look s.ks.keks 0).isSome ++ boolOctet (look s.ks.keks 1).isSome ++ boolOctet (look s.ks.keks 2).isSome ++
      boolOctet (look s.ks.keks 3).isSome ++ boolOctet s.ks.running.isSome ++ octetsOf 1 s.ks.jobs.length ++
      octetsOf 2 (slotsIn s.ks .free) ++ octetsOf 2 (slotsIn s.ks .unwrapping) ++ octetsOf 2 (slotsIn s.ks .ready) ++
      octetsOf 2 (slotsIn s.ks .current) ++ octetsOf 2 (slotsIn s.ks .draining) ++ octetsOf 2 (slotsIn s.ks .scrubbing) ++
      lastFailureOctets s.ks.lastFailure ++ octetsOf 6 s.ks.successes ++ octetsOf 6 s.ks.failures ++
      octetsOf 6 s.ks.setAside := by
  simp only [keyStorePart, flatten_map_four, counterOctets, List.append_assoc]

/-- The last-failure record has 8 octets for each target. -/
theorem lastFailureOctets_length (f : Option (FailTarget × UnwrapCause)) : (lastFailureOctets f).length = 8 := by
  rcases f with _ | ⟨_ | _ | _, _⟩ <;> simp [lastFailureOctets]

theorem keyStorePart_length (s : State) : (keyStorePart s).length = 47 := by
  simp [keyStorePart_eq, lastFailureOctets_length]

/-! ### The parts of the other four blocks (R197) -/

/-- An IDLE Age Timer and a RUNNING pass fill the same 8 octets. -/
theorem passOctets_length (p : Option Pass) : (passOctets p).length = 8 := by
  cases p <;> simp [passOctets]

theorem ageTimerPart_length (a : AgeTimer) : (ageTimerPart a).length = 24 := by
  simp [ageTimerPart, passOctets_length, counterOctets]

theorem agentPart_length (a : Agent) : (agentPart a).length = 53 := by
  simp [agentPart, CounterSet.octets_length]

theorem defaultOctets_length (d : DefaultAction) : (defaultOctets d).length = 2 := by
  cases d <;> simp [defaultOctets]

/-- A route that is not set fills the same 7 octets as one that is. -/
theorem routeOctets_length (r : Option NoticeRoute) : (routeOctets r).length = 7 := by
  cases r <;> simp [routeOctets]

theorem noticePart_length (n : NoticeUnit) : (noticePart n).length = 12 := by
  simp [noticePart, routeOctets_length]

/-! ### The command and its snapshots (R167) -/

/-- The command asks the blocks and keeps the agent's part that it has held since its begin. -/
theorem execDeviceStatusRead_goesOn {c : Command} {part : Option Bytes} (hc : begunCommand 0x02 s = some c)
    (hs : c.stage = .begun part) :
    execDeviceStatusRead s = .next (setStage c (.gatherStatus none none part none none) s) :=
  congrArg Host.Outcome.next (takeCommand_goesOn hc (by simp only [hs]))

theorem fillPart_eq (old : Option Bytes) (new : Bytes) : fillPart old new = old.or (some new) := by
  cases old <;> rfl

/-- A snapshot fills its block's part, unless it stands already, and leaves the other parts. -/
theorem statusSnapshot_eq {c : Command} {k a g e n : Option Bytes} (b : StatusBlock) (hc : s.agent.progress = some c)
    (hs : c.stage = .gatherStatus k a g e n) :
    statusSnapshot b s = statusGathered c
      (if b = .keyStore then k.or (some (keyStorePart s)) else k)
      (if b = .ageTimer then a.or (some (ageTimerPart s.age)) else a)
      (if b = .controlAgent then g.or (some (agentPart s.agent)) else g)
      (if b = .selector then e.or (some (defaultOctets s.selector.default)) else e)
      (if b = .noticeUnit then n.or (some (noticePart s.notice)) else n) s := by
  cases b <;> simp only [statusSnapshot, hc, hs, fillPart_eq, if_true, reduceCtorEq, if_false]

/-- The command goes on while a part is missing. -/
theorem statusGathered_missing (c : Command) {k a g e n : Option Bytes} (s : State)
    (h : k = none ∨ a = none ∨ g = none ∨ e = none ∨ n = none) :
    statusGathered c k a g e n s = setStage c (.gatherStatus k a g e n) s := by
  unfold statusGathered
  split
  · simp at h
  · rfl

/-- The command that holds every part is answered with the record (R155, R167). -/
theorem statusGathered_answered (c : Command) (k a g e n : Bytes) (s : State) :
    Answered s c .ok (k ++ a ++ g ++ e ++ n) (statusGathered c (some k) (some a) (some g) (some e) (some n) s) :=
  answer_answered _ _ _ _ _

/-- Settles O45: the two commands are taken at their owner, and a snapshot fills one of the five parts. -/
theorem identityAndStatusReads : Obligations.IdentityAndStatusReads := by
  unfold Obligations.IdentityAndStatusReads
  refine ⟨fun s c hc => ?_, fun s c part hc hs => ?_, ?_⟩
  · exact ⟨_, rfl, identityRecord_eq s ▸ takeCommand_done hc rfl⟩
  · exact ⟨_, execDeviceStatusRead_goesOn hc hs, settled_agent _ _ _ _ _, rfl⟩
  · intro s c k a g e n b hc hs slots cause failure keyStore pass ageTimer agent default route notice k' a' g' e' n'
    have hfailure : lastFailureOctets s.ks.lastFailure = failure := by
      simp only [failure, cause]
      rcases s.ks.lastFailure with _ | ⟨_ | _ | _, _ | _⟩ <;> rfl
    have hpass : passOctets s.age.pass = pass := by
      simp only [pass]
      cases s.age.pass <;> rfl
    have hroute : routeOctets s.notice.route = route := by
      simp only [route]
      cases s.notice.route <;> rfl
    have hkeyStore : keyStorePart s = keyStore := by rw [keyStorePart_eq, hfailure]; rfl
    have hageTimer : ageTimerPart s.age = ageTimer := by rw [ageTimerPart, hpass]; rfl
    have hagent : agentPart s.agent = agent := rfl
    have hdefault : defaultOctets s.selector.default = default := by
      simp only [default]
      cases s.selector.default <;> rfl
    have hnotice : noticePart s.notice = notice := by rw [noticePart, hroute]
    have ht : statusSnapshot b s = statusGathered c k' a' g' e' n' s := by
      rw [statusSnapshot_eq b hc hs, hkeyStore, hageTimer, hagent, hdefault, hnotice]
    refine ⟨hkeyStore ▸ keyStorePart_length s, hageTimer ▸ ageTimerPart_length s.age, hagent ▸ agentPart_length s.agent,
      hdefault ▸ defaultOctets_length _, hnotice ▸ noticePart_length s.notice, _, rfl,
      fun k₁ a₁ g₁ e₁ n₁ hk ha hg he hn => ?_, fun h => ?_⟩
    · rw [ht, hk, ha, hg, he, hn]
      exact statusGathered_answered c k₁ a₁ g₁ e₁ n₁ s
    · rw [ht]
      exact statusGathered_missing c s h

end Sys2Proof.Machine
end

section
/-! The owed marks (O7): what `OwedMarksWait` rests on, and the operations at the end of an event. -/

namespace Sys2Proof.Machine

variable {s t : State}

/-! ### The invariant (R189, R41) -/

/-- The stage of a restart past its third step. -/
def Stage.pastContexts : Stage → Bool
  | .restart step _ => step.afterContexts
  | _ => false

/-- The agent has a restart in progress that is past its third step. -/
def Agent.pastContexts (a : Agent) : Bool := a.progress.any (fun c => c.stage.pastContexts)

/-- An owed mark of the device or of a context is set. -/
def MarkOwed (s : State) : Prop := s.notice.owed ≠ 0#6 ∨ ∃ c, (s.ctx c).owed ≠ 0#8

/-- No context has an owed mark or an enable. -/
def ContextsQuiet (s : State) : Prop := ∀ c, (s.ctx c).owed = 0#8 ∧ (s.ctx c).enables = 0#8

theorem Stage.pastContexts_iff {st : Stage} :
    st.pastContexts = true ↔ ∃ step free, st = .restart step free ∧ step.afterContexts = true := by
  cases st <;> simp [Stage.pastContexts]

theorem Agent.pastContexts_some {a : Agent} {c : Command} (h : a.progress = some c) :
    a.pastContexts = c.stage.pastContexts := by
  simp [Agent.pastContexts, h]

theorem owedMarksWait_iff : OwedMarksWait s ↔ s.notice.queue.length ≤ noticePlaces ∧
    (MarkOwed s → s.notice.queue.length = noticePlaces) ∧ (s.agent.pastContexts = true → ContextsQuiet s) := by
  constructor
  · intro h
    refine ⟨h.bound, fun m => m.elim h.device fun ⟨c, hc⟩ => h.context c hc, fun hp => ?_⟩
    obtain ⟨cmd, hcmd, hst⟩ := (Option.any_eq_true ..).1 hp
    obtain ⟨step, free, hs, ha⟩ := Stage.pastContexts_iff.1 hst
    exact h.restart cmd step free hcmd hs ha
  · rintro ⟨bound, full, quiet⟩
    refine ⟨bound, fun m => full (.inl m), fun c m => full (.inr ⟨c, m⟩), fun cmd step free hcmd hs ha => quiet ?_⟩
    rw [Agent.pastContexts_some hcmd]
    exact Stage.pastContexts_iff.2 ⟨step, free, hs, ha⟩

theorem OwedMarksWait.full (h : OwedMarksWait s) : MarkOwed s → s.notice.queue.length = noticePlaces :=
  (owedMarksWait_iff.1 h).2.1

theorem OwedMarksWait.quiet (h : OwedMarksWait s) : s.agent.pastContexts = true → ContextsQuiet s :=
  (owedMarksWait_iff.1 h).2.2

/-- While the Notice Queue has room, no mark is owed. -/
theorem OwedMarksWait.not_markOwed (h : OwedMarksWait s) (hq : s.notice.queue.length < noticePlaces) : ¬MarkOwed s :=
  fun m => Nat.ne_of_lt hq (h.full m)

/-! ### What the invariant does not look at -/

/-- A state with the same Notice Queue, the same marks and no more enables, in which no further restart is past its third
step. -/
theorem OwedMarksWait.congr (h : OwedMarksWait s) (hq : t.notice.queue = s.notice.queue) (hd : t.notice.owed = s.notice.owed)
    (hc : ∀ c, (t.ctx c).owed = (s.ctx c).owed) (hp : t.agent.pastContexts = true → s.agent.pastContexts = true)
    (he : t.agent.pastContexts = true → ∀ c, (s.ctx c).enables = 0#8 → (t.ctx c).enables = 0#8) : OwedMarksWait t := by
  refine owedMarksWait_iff.2 ⟨hq ▸ h.bound, fun m => hq ▸ h.full ?_, fun hpt c => ?_⟩
  · simpa only [MarkOwed, hd, hc] using m
  · obtain ⟨ho, hen⟩ := h.quiet (hp hpt) c
    exact ⟨(hc c).trans ho, he hpt c hen⟩

/-- `t` has the Notice Unit, the context records and the Control Agent of `s`. -/
structure LeavesMarks (s t : State) : Prop where
  notice : t.notice = s.notice
  ctxs : t.ctxs = s.ctxs
  agent : t.agent = s.agent

theorem LeavesMarks.refl (s : State) : LeavesMarks s s := ⟨rfl, rfl, rfl⟩

theorem LeavesMarks.trans {a b c : State} (h : LeavesMarks a b) (k : LeavesMarks b c) : LeavesMarks a c :=
  ⟨k.notice.trans h.notice, k.ctxs.trans h.ctxs, k.agent.trans h.agent⟩

theorem LeavesMarks.ctx (k : LeavesMarks s t) (c : CtxIx) : t.ctx c = s.ctx c := congrArg (look · c) k.ctxs

theorem LeavesMarks.owedWait (k : LeavesMarks s t) (h : OwedMarksWait s) : OwedMarksWait t :=
  h.congr (by rw [k.notice]) (by rw [k.notice]) (fun c => by rw [k.ctx]) (by rw [k.agent]; exact id)
    (fun _ c => by rw [k.ctx]; exact id)

/-! ### Replacements of a block that holds no mark -/

theorem setRx_leavesMarks (s : State) (l : Lane) (x : TrunkRx) : LeavesMarks s (s.setRx l x) := ⟨rfl, rfl, rfl⟩

theorem setCipher_leavesMarks (s : State) (l : Lane) (x : CipherLane) : LeavesMarks s (s.setCipher l x) := ⟨rfl, rfl, rfl⟩

theorem setCampus_leavesMarks (s : State) (l : Lane) (x : CampusQueue) : LeavesMarks s (s.setCampus l x) := ⟨rfl, rfl, rfl⟩

theorem setMerge_leavesMarks (s : State) (l : Lane) (x : ReturnMerge) : LeavesMarks s (s.setMerge l x) := ⟨rfl, rfl, rfl⟩

theorem setSelector_leavesMarks (s : State) (x : Selector) : LeavesMarks s (s.setSelector x) := ⟨rfl, rfl, rfl⟩

theorem setKs_leavesMarks (s : State) (x : KeyStore) : LeavesMarks s (s.setKs x) := ⟨rfl, rfl, rfl⟩

theorem setAge_leavesMarks (s : State) (x : AgeTimer) : LeavesMarks s (s.setAge x) := ⟨rfl, rfl, rfl⟩

theorem setTransit_leavesMarks (s : State) (x : Transit) : LeavesMarks s (s.setTransit x) := ⟨rfl, rfl, rfl⟩

theorem drawn_leavesMarks (s : State) : LeavesMarks s (drawn s) := ⟨rfl, rfl, rfl⟩

/-! ### Replacements of a block that the invariant looks at -/

/-- A change of the agent that puts no restart past its third step. -/
theorem OwedMarksWait.setAgent (h : OwedMarksWait s) {a : Agent} (ha : a.pastContexts = true → s.agent.pastContexts = true) :
    OwedMarksWait (s.setAgent a) :=
  h.congr rfl rfl (fun _ => rfl) ha (fun _ _ => id)

/-- A change of the Notice Unit that leaves its queue and its owed marks. -/
theorem OwedMarksWait.setNotice (h : OwedMarksWait s) {n : NoticeUnit} (hq : n.queue = s.notice.queue)
    (hd : n.owed = s.notice.owed) : OwedMarksWait (s.setNotice n) :=
  h.congr hq hd (fun _ => rfl) id (fun _ _ => id)

/-- A change of a record that leaves its owed marks, and adds no enable once a restart is past its third step. -/
theorem OwedMarksWait.setCtx (h : OwedMarksWait s) {c : CtxIx} {r : Ctx} (ho : r.owed = (s.ctx c).owed)
    (he : s.agent.pastContexts = true → (s.ctx c).enables = 0#8 → r.enables = 0#8) : OwedMarksWait (s.setCtx c r) := by
  refine h.congr rfl rfl (fun d => ?_) id (fun hp d => ?_)
  · rw [State.setCtx_ctx]; split
    · next e => rw [ho, e]
    · rfl
  · rw [State.setCtx_ctx]; split
    · next e => rw [e]; exact he hp
    · exact id

/-- A change of a record that leaves its owed marks and its enables. -/
theorem OwedMarksWait.setCtx_same (h : OwedMarksWait s) {c : CtxIx} {r : Ctx} (ho : r.owed = (s.ctx c).owed)
    (he : r.enables = (s.ctx c).enables) : OwedMarksWait (s.setCtx c r) :=
  h.setCtx ho fun _ => he.trans

/-! ### Flags and notices (R185 to R190) -/

/-- A record joins the Notice Queue where it has room, and so where no mark is owed. -/
theorem queueRecord_owedWait (h : OwedMarksWait s) (n : NoticeRecord) (hq : s.notice.queue.length < noticePlaces) :
    OwedMarksWait (queueRecord n s) :=
  owedMarksWait_iff.2 ⟨length_append_one_le hq n, fun m => absurd m (h.not_markOwed hq), h.quiet⟩

theorem OwedMarksWait.queue_full (h : OwedMarksWait s) (hq : ¬s.notice.queue.length < noticePlaces) :
    s.notice.queue.length = noticePlaces :=
  Nat.le_antisymm h.bound (Nat.not_lt.1 hq)

/-- A rise sets an owed mark only where the Notice Queue is full, and has its enable, which no context has once a restart is
past its third step. -/
theorem ctxRise_owedWait (h : OwedMarksWait s) (c : CtxIx) (f : CtxFlag) : OwedMarksWait (ctxRise c f s) := by
  unfold ctxRise; split
  · next enabled =>
    split
    · next hq => exact queueRecord_owedWait h _ hq
    · next hq =>
      refine owedMarksWait_iff.2 ⟨h.bound, fun _ => h.queue_full hq, fun hp => ?_⟩
      have clear := (h.quiet hp c).2
      rw [clear, hasFlag_zero, Bool.and_false] at enabled
      cases enabled
  · exact h

theorem reportFlags_owedWait (h : OwedMarksWait s) (c : CtxIx) (b : BitVec 8) (fs : List CtxFlag) :
    OwedMarksWait (reportFlags c b fs s) := by
  induction fs generalizing s with
  | nil => exact h
  | cons f fs ih =>
    unfold reportFlags
    refine ih ?_
    split
    · exact ctxRise_owedWait h c f
    · exact h

theorem reportRises_owedWait (h : OwedMarksWait s) (c : CtxIx) (s₀ : State) : OwedMarksWait (reportRises c s₀ s) :=
  reportFlags_owedWait h _ _ _

theorem raiseDevice_owedWait (h : OwedMarksWait s) (f : DevFlag) : OwedMarksWait (raiseDevice f s) := by
  unfold raiseDevice; split
  · exact h
  · have h₁ : OwedMarksWait (s.setNotice { s.notice with flags := setFlag s.notice.flags f.bit }) := h.setNotice rfl rfl
    simp only
    split
    · split
      · next hq => exact queueRecord_owedWait h₁ _ hq
      · next hq => exact owedMarksWait_iff.2 ⟨h.bound, fun _ => h.queue_full hq, h.quiet⟩
    · exact h₁

/-! ### Departure (R189 to R191) -/

/-- A set with none of the device flags is empty. -/
theorem devSet_zero {o : BitVec 6} (h : DevFlag.all.find? (fun f => hasFlag o f.bit) = none) : o = 0#6 := by
  have bits : ∀ i < 6, ∃ f ∈ DevFlag.all, f.bit = i := by decide
  refine BitVec.eq_of_getLsbD_eq fun i hi => ?_
  obtain ⟨f, hf, rfl⟩ := bits i hi
  simpa [hasFlag] using List.find?_eq_none.1 h f hf

/-- A set with none of the context flags is empty. -/
theorem ctxSet_zero {o : BitVec 8} (h : firstCtxFlag o CtxFlag.all = none) : o = 0#8 := by
  have bits : ∀ i < 8, ∃ f ∈ CtxFlag.all, f.bit = i := by decide
  refine BitVec.eq_of_getLsbD_eq fun i hi => ?_
  obtain ⟨f, hf, rfl⟩ := bits i hi
  simpa [hasFlag] using List.find?_eq_none.1 h f hf

/-- The search finds no mark only where there is none. -/
theorem firstOwed_eq_none {rs : List Ctx} {k : Nat} (h : firstOwed rs k = none) : ∀ r ∈ rs, r.owed = 0#8 := by
  induction rs generalizing k with
  | nil => exact fun _ hr => absurd hr List.not_mem_nil
  | cons r rs ih =>
    unfold firstOwed at h
    split at h
    · cases h
    · next hr => exact List.forall_mem_cons.2 ⟨ctxSet_zero hr, ih h⟩

/-- The search finds a mark at the number of a record that has one. -/
theorem firstOwed_eq_some {rs : List Ctx} {k i : Nat} {f : CtxFlag} (h : firstOwed rs k = some (i, f)) :
    ∃ n, ∃ hn : n < rs.length, i = k + n ∧ rs[n].owed ≠ 0#8 := by
  induction rs generalizing k with
  | nil => cases h
  | cons r rs ih =>
    unfold firstOwed at h
    split at h
    · next hr =>
      cases h
      refine ⟨0, Nat.succ_pos _, rfl, fun (e : r.owed = 0#8) => ?_⟩
      rw [e, firstCtxFlag_zero] at hr
      cases hr
    · obtain ⟨n, hn, hi, ho⟩ := ih h
      exact ⟨n + 1, Nat.succ_lt_succ hn, by omega, ho⟩

/-- The freed place goes to a mark that is owed, and stays free only where none is (R189). -/
theorem takeOwed_cases (s : State) :
    (¬MarkOwed s ∧ takeOwed s = s) ∨
      (∃ o n, s.notice.owed ≠ 0#6 ∧ takeOwed s = queueRecord n (s.setNotice { s.notice with owed := o })) ∨
        ∃ c o n, (s.ctx c).owed ≠ 0#8 ∧ takeOwed s = queueRecord n (s.setCtx c { s.ctx c with owed := o }) := by
  unfold takeOwed
  split
  · next f hf =>
    refine .inr (.inl ⟨_, _, fun e => ?_, rfl⟩)
    rw [devOwed_none e] at hf
    cases hf
  · next hd =>
    split
    · next hc =>
      refine .inl ⟨fun m => ?_, rfl⟩
      rcases m with m | ⟨c, m⟩
      · exact m (devSet_zero hd)
      · exact m (firstOwed_eq_none hc _ (by simp [State.ctx, look]))
    · next i f hf =>
      obtain ⟨n, hn, hi, ho⟩ := firstOwed_eq_some hf
      obtain rfl : i = n := by omega
      have hlt : i < 1024 := by simpa using hn
      have hix : indexOf 1024 i = some ⟨i, hlt⟩ := dif_pos hlt
      rw [hix]
      exact .inr (.inr ⟨⟨i, hlt⟩, _, _, by simpa [State.ctx, look] using ho, rfl⟩)

/-- From a full Notice Queue with one place freed, the first owed mark fills it again; from any other no mark is owed. -/
theorem takeOwed_owedWait (hq : s.notice.queue.length < noticePlaces)
    (hf : MarkOwed s → s.notice.queue.length + 1 = noticePlaces) (hp : s.agent.pastContexts = true → ContextsQuiet s) :
    OwedMarksWait (takeOwed s) := by
  have filled : ∀ n, MarkOwed s → (s.notice.queue ++ [n]).length = noticePlaces := fun n m => by
    rw [List.length_append]; exact hf m
  rcases takeOwed_cases s with ⟨none, e⟩ | ⟨o, n, m, e⟩ | ⟨c, o, n, m, e⟩ <;> rw [e]
  · exact owedMarksWait_iff.2 ⟨Nat.le_of_lt hq, fun m => absurd m none, hp⟩
  · have hl := filled n (.inl m)
    exact owedMarksWait_iff.2 ⟨Nat.le_of_eq hl, fun _ => hl, hp⟩
  · have hl := filled n (.inr ⟨c, m⟩)
    exact owedMarksWait_iff.2 ⟨Nat.le_of_eq hl, fun _ => hl, fun p => absurd (hp p c).1 m⟩

theorem depart_owedWait (h : OwedMarksWait s) : OwedMarksWait (depart s) := by
  unfold depart
  split
  · next r n rest _ hq =>
    have hlen : s.notice.queue.length = rest.length + 1 := by rw [hq]; rfl
    have hroom : rest.length < noticePlaces := Nat.lt_of_succ_le (Nat.le_trans (Nat.le_of_eq hlen.symm) h.bound)
    split
    · exact takeOwed_owedWait hroom (fun m => hlen.symm.trans (h.full m)) h.quiet
    · exact h
  · exact h

theorem departNew_owedWait (h : OwedMarksWait s) (s₀ : State) : OwedMarksWait (departNew s₀ s) := by
  unfold departNew; split
  · exact depart_owedWait h
  · exact h

/-! ### The Control Agent (R148 to R161) -/

/-- The command in progress takes another stage, past the third step of a restart only from there. -/
theorem setStage_owedWait (h : OwedMarksWait s) (c : Command) {st : Stage}
    (hst : st.pastContexts = true → s.agent.pastContexts = true) : OwedMarksWait (setStage c st s) :=
  h.setAgent hst

theorem respond_owedWait (h : OwedMarksWait s) (c : Command) (st : Status) (body : Bytes) :
    OwedMarksWait (respond c st body s) :=
  ((setMerge_leavesMarks s _ _).owedWait h).setAgent nofun

theorem abandon_owedWait (h : OwedMarksWait s) (c : Command) : OwedMarksWait (abandon c s) :=
  ((setMerge_leavesMarks s _ _).owedWait h).setAgent nofun

/-- A command that begins is no restart past its third step. -/
theorem beginHead_owedWait (h : OwedMarksWait s) : OwedMarksWait (beginHead s) := by
  unfold beginHead
  split
  · exact h
  · next f rest _ =>
    have h₁ : OwedMarksWait ((s.setAgent { s.agent with intake := rest, serial := s.agent.serial + 1 }).setMerge f.lane
        { s.mergeOf f.lane with reserved := true }) := (setMerge_leavesMarks _ _ _).owedWait (h.setAgent id)
    simp only
    split
    · exact respond_owedWait h₁ _ _ _
    · split
      · exact h₁.setAgent nofun
      · exact h₁.setAgent nofun

theorem purgeList_owedWait (fs : List IntakeFrame) (h : OwedMarksWait s) : OwedMarksWait (purgeList fs s) := by
  induction fs generalizing s with
  | nil => exact h
  | cons f fs ih =>
    unfold purgeList
    split
    · have h₁ : OwedMarksWait (s.setAgent (({ s.agent with intake := fs } : Agent).count .authFailures 1)) := h.setAgent id
      exact ih (raiseDevice_owedWait h₁ _)
    · exact h

theorem purge_owedWait (h : OwedMarksWait s) : OwedMarksWait (purge s) := by
  unfold purge; split
  · exact purgeList_owedWait _ h
  · exact h

theorem agentLoop_owedWait (n : Nat) (h : OwedMarksWait s) : OwedMarksWait (agentLoop n s) := by
  induction n generalizing s with
  | zero => exact h
  | succ n ih =>
    unfold agentLoop; split
    · exact ih (beginHead_owedWait (purge_owedWait h))
    · exact purge_owedWait h

theorem agentRun_owedWait (h : OwedMarksWait s) : OwedMarksWait (agentRun s) := agentLoop_owedWait _ h

theorem endLoop_owedWait (n : Nat) (s₀ : State) (h : OwedMarksWait s) : OwedMarksWait (endLoop n s₀ s) := by
  induction n generalizing s with
  | zero => exact departNew_owedWait h _
  | succ n ih =>
    have hp := purge_owedWait h
    have hd := (drawn_leavesMarks _).owedWait hp
    unfold endLoop; simp only
    split
    · split
      · split
        · exact agentRun_owedWait (depart_owedWait hd)
        · exact ih (beginHead_owedWait hd)
      · exact ih (beginHead_owedWait hp)
    · exact departNew_owedWait hp _

theorem settle_owedWait (h : OwedMarksWait s) (s₀ : State) : OwedMarksWait (settle s₀ s) := endLoop_owedWait _ _ h

theorem answer_owedWait (h : OwedMarksWait s) (s₀ : State) (c : Command) (st : Status) (body : Bytes) :
    OwedMarksWait (answer s₀ c st body s) := by
  have hd := (drawn_leavesMarks s).owedWait h
  unfold answer; split
  · split
    · exact agentRun_owedWait (respond_owedWait (depart_owedWait hd) _ _ _)
    · exact settle_owedWait (respond_owedWait hd _ _ _) _
  · exact settle_owedWait (respond_owedWait h _ _ _) _

/-- The own effect of a station command keeps the invariant, and a stage that it goes on to is not one of a restart past its
third step. -/
def Taken.OwedWait : Taken → Prop
  | .refuse _ => True
  | .done _ _ u => OwedMarksWait u
  | .waits stage u => OwedMarksWait u ∧ stage.pastContexts = false

theorem Taken.OwedWait.done {u : State} {st : Status} {body : Bytes} (h : OwedMarksWait u) :
    (Taken.done st body u).OwedWait := h

theorem Taken.OwedWait.waits {u : State} {stage : Stage} (h : OwedMarksWait u) (hp : stage.pastContexts = false) :
    (Taken.waits stage u).OwedWait := ⟨h, hp⟩

theorem refuseIf_owedWait {k : Taken} (hk : k.OwedWait) (b : Bool) (st : Status) : (refuseIf b st k).OwedWait := by
  unfold refuseIf; split
  · trivial
  · exact hk

/-- While a command waits to be taken, no restart is past its third step. -/
theorem begunCommand_pastContexts {code : Nat} {c : Command} (h : begunCommand code s = some c) :
    s.agent.pastContexts = false := by
  rw [Agent.pastContexts_some (begunCommand_progress h)]
  unfold begunCommand at h
  split at h
  · cases h
  · split at h
    · next hs =>
      split at h
      · cases h; rw [hs]; rfl
      · cases h
    · cases h

theorem takeCommand_owedWait (h : OwedMarksWait s) (code : Nat) {act : Command → State → Taken}
    (ha : ∀ c, s.agent.pastContexts = false → (act c s).OwedWait) : OwedMarksWait (takeCommand code act s) := by
  cases hb : begunCommand code s with
  | none => rw [takeCommand_absent hb]; exact h
  | some c =>
    have hw := ha c (begunCommand_pastContexts hb)
    rw [takeCommand_begun hb]
    cases hact : act c s with
    | refuse st => exact answer_owedWait h _ _ _ _
    | done st body u => rw [hact] at hw; exact answer_owedWait hw _ _ _ _
    | waits stage u =>
      rw [hact] at hw
      obtain ⟨hu, hst⟩ := hw
      exact settle_owedWait (setStage_owedWait hu c fun hp => absurd (hst.symm.trans hp) Bool.false_ne_true) _

end Sys2Proof.Machine
end

section
/-! The owed marks (O7): events at a context record, and the blocks that hold no mark. -/

namespace Sys2Proof.Machine

variable {s t : State}

/-! ### What an event at a record does with its enables (R38) -/

/-- An event at a record that leaves its enables keeps the invariant: it leaves the owed marks. -/
theorem RecordEvent.owedWait {c : CtxIx} (k : RecordEvent c s t) (he : (t.ctx c).enables = (s.ctx c).enables)
    (h : OwedMarksWait s) : OwedMarksWait t := by
  have hx : ∀ d, (t.ctx d).owed = (s.ctx d).owed ∧ (t.ctx d).enables = (s.ctx d).enables := fun d => by
    by_cases e : d = c
    · rw [e]; exact ⟨k.owed, he⟩
    · rw [k.reaches.other d e]; exact ⟨rfl, rfl⟩
  have hn : t.notice = s.notice := by rw [k.reaches.frame]
  exact h.congr (by rw [hn]) (by rw [hn]) (fun d => (hx d).1) (by rw [k.reaches.agent]; exact id)
    (fun _ d hd => (hx d).2.trans hd)

theorem Ctx.count_enables (r : Ctx) (n : CtxCounter) (k : Nat) : (r.count n k).enables = r.enables := by
  unfold Ctx.count; simp only; split <;> rfl

theorem crossedRecord_enables (r : Ctx) : (crossedRecord r).enables = r.enables := by
  unfold crossedRecord; simp only; repeat' split
  all_goals rfl

theorem agedRecord_enables (r : Ctx) (inc : Nat) : (agedRecord r inc).enables = r.enables := by
  unfold agedRecord; simp only; split <;> rfl

theorem slotRequest_ctx (k : SlotIx) (c : CtxIx) (g : Gen) (f : Slot → Slot) (s : State) (d : CtxIx) :
    (slotRequest k c g f s).ctx d = s.ctx d := by rw [slotRequest_frame]

theorem switchCtx_enables (c : CtxIx) (s : State) : ((switchCtx c s).ctx c).enables = (s.ctx c).enables := by
  by_cases h : nextReady (s.ctx c) = true
  · obtain ⟨k, hk⟩ := (nextReady_iff _).1 h
    rw [switchCtx_ctx hk]; rfl
  · unfold switchCtx; split
    · next k hk => exact absurd ((nextReady_iff _).2 ⟨k, hk⟩) h
    · rfl

theorem hardEvent_enables (c : CtxIx) (s : State) : ((hardEvent c s).ctx c).enables = (s.ctx c).enables := by
  rcases hardEvent_ctx c s with ⟨k, _, h⟩ | ⟨_, h⟩ <;> rw [h] <;> rfl

theorem softCrossing_enables (c : CtxIx) (s : State) : ((softCrossing c s).ctx c).enables = (s.ctx c).enables := by
  rw [softCrossing_ctx]; split <;> exact crossedRecord_enables _

/-! ### Admissions (R54 to R59) -/

theorem admitUnder_enables (k : SlotIx) (q : AdmissionReq) (s : State) :
    ((admitUnder k q s).ctx q.ctx).enables = (s.ctx q.ctx).enables := by
  unfold admitUnder
  rw [slotRequest_ctx, State.setCtx_ctx_same, admittedRecord, Ctx.count_enables, Ctx.count_enables]

theorem admissionSoft_enables (c : CtxIx) (pn : Nat) (s : State) :
    ((admissionSoft c pn s).ctx c).enables = (s.ctx c).enables := by
  unfold admissionSoft; simp only; split
  · exact softCrossing_enables _ _
  · rfl

theorem admissionPnHard_enables (c : CtxIx) (s : State) : ((admissionPnHard c s).ctx c).enables = (s.ctx c).enables := by
  unfold admissionPnHard; split
  · exact hardEvent_enables _ _
  · rfl

theorem admitActive_enables (q : AdmissionReq) (s : State) :
    ((admitActive q s).1.ctx q.ctx).enables = (s.ctx q.ctx).enables := by
  unfold admitActive; simp only; split
  · exact (admissionPnHard_enables _ _).trans ((admissionSoft_enables _ _ _).trans (admitUnder_enables _ _ _))
  · rw [State.setCtx_ctx_same, Ctx.count_enables]

theorem decideAdmission_enables (q : AdmissionReq) (s : State) :
    ((decideAdmission q s).1.ctx q.ctx).enables = (s.ctx q.ctx).enables := by
  unfold decideAdmission; simp only
  repeat' split
  · rfl
  · rw [State.setCtx_ctx_same]; exact Ctx.count_enables _ _ _
  · exact (admitActive_enables q _).trans (hardEvent_enables _ _)
  · exact admitActive_enables q s

/-! ### Trunk Receive and the Cipher Lanes (R4, R106 to R119) -/

theorem slotRequest_leavesMarks (k : SlotIx) (c : CtxIx) (g : Gen) (f : Slot → Slot) (s : State) :
    LeavesMarks s (slotRequest k c g f s) := by
  rw [slotRequest_frame]; exact ⟨rfl, rfl, rfl⟩

theorem laneTake_leavesMarks (l : Lane) (s : State) : LeavesMarks s (laneTake l s) := by
  rw [laneTake_frame]; exact ⟨rfl, rfl, rfl⟩

theorem takeAnswer_leavesMarks (l : Lane) (q : AdmissionReq) (a : Admission) (s : State) :
    LeavesMarks s (takeAnswer l q a s) := by
  rw [takeAnswer_frame]; exact ⟨rfl, rfl, rfl⟩

theorem handOver_leavesMarks (l : Lane) (c : Cls) (f : CampusFrame) (owner : Option (CtxIx × Gen)) (s : State) :
    LeavesMarks s (handOver l c f owner s) := by
  rw [handOver_frame]; exact ⟨rfl, rfl, rfl⟩

theorem lookupHead_leavesMarks (l : Lane) (f : Bytes) (rest : List Bytes) (s : State) :
    LeavesMarks s (lookupHead l f rest s) := by
  unfold lookupHead
  split
  · simp only; split <;> exact ⟨rfl, rfl, rfl⟩
  · split <;> exact ⟨rfl, rfl, rfl⟩

theorem selectorLookup_leavesMarks (l : Lane) (s : State) : LeavesMarks s (selectorLookup l s) := by
  unfold selectorLookup; split
  · exact (lookupHead_leavesMarks _ _ _ _).trans (laneTake_leavesMarks _ _)
  · exact .refl _

theorem laneDropReport_leavesMarks (n : Nat) (s : State) : LeavesMarks s (laneDropReport n s) := by
  unfold laneDropReport; split
  · exact .refl _
  · exact ⟨rfl, rfl, rfl⟩

theorem discardProtect_leavesMarks (l : Lane) (k : SlotIx) (c : CtxIx) (g : Gen) (restart : Bool) (s : State) :
    LeavesMarks s (discardProtect l k c g restart s) :=
  (slotRequest_leavesMarks k c g decreaseSlot s).trans ⟨rfl, rfl, rfl⟩

theorem passCompletion_leavesMarks (l : Lane) (s : State) : LeavesMarks s (passCompletion l s) := by
  unfold passCompletion; split
  · next rest _ =>
    have dropped : LeavesMarks s (dropRecord l rest s) := ⟨rfl, rfl, rfl⟩
    exact (dropped.trans (handOver_leavesMarks _ _ _ _ _)).trans (laneTake_leavesMarks _ _)
  · exact .refl _

theorem protectCompletion_leavesMarks (l : Lane) (s : State) : LeavesMarks s (protectCompletion l s) := by
  unfold protectCompletion; split
  · next rest _ =>
    have dropped : LeavesMarks s (dropRecord l rest s) := ⟨rfl, rfl, rfl⟩
    simp only; split
    · exact ((dropped.trans (handOver_leavesMarks _ _ _ _ _)).trans (slotRequest_leavesMarks _ _ _ _ _)).trans
        (laneTake_leavesMarks _ _)
    · exact (dropped.trans (discardProtect_leavesMarks _ _ _ _ _ _)).trans (laneTake_leavesMarks _ _)
  · exact .refl _

theorem inFlightDecrease_leavesMarks (k : SlotIx) (c : CtxIx) (g : Gen) (s : State) :
    LeavesMarks s (inFlightDecrease k c g s) := by
  unfold inFlightDecrease; split
  · exact slotRequest_leavesMarks _ _ _ _ _
  · exact .refl _

theorem flushRecords_leavesMarks (l : Lane) (restart : Bool) (rs : List Rec) (s : State) :
    LeavesMarks s (flushRecords l restart rs s) := by
  induction rs generalizing s with
  | nil => exact .refl _
  | cons r rs ih =>
    unfold flushRecords
    refine LeavesMarks.trans ?_ (ih _)
    cases r with
    | pass f c => exact ⟨rfl, rfl, rfl⟩
    | protect p => exact discardProtect_leavesMarks _ _ _ _ _ _
    | reserved f e c => exact .refl _
    | flushed => exact .refl _

theorem flushLane_leavesMarks (l : Lane) (restart : Bool) (s : State) : LeavesMarks s (flushLane l restart s) := by
  rw [flushLane_eq]
  exact (flushRecords_leavesMarks _ _ _ _).trans ((setCipher_leavesMarks _ _ _).trans (laneTake_leavesMarks _ _))

/-! ### Reception (R1, R149 to R152, R162) -/

theorem countAgent_owedWait (h : OwedMarksWait s) (c : AgentCounter) : OwedMarksWait (countAgent c s) := h.setAgent id

theorem enterIntake_owedWait (h : OwedMarksWait s) (l : Lane) (f : Bytes) (auth : Bool) :
    OwedMarksWait (enterIntake l f auth s) := by
  unfold enterIntake; split
  · exact h.setAgent id
  · exact raiseDevice_owedWait (countAgent_owedWait h _) _

theorem agentArrival_owedWait (h : OwedMarksWait s) (l : Lane) (f : Bytes) : OwedMarksWait (agentArrival l f s) := by
  unfold agentArrival
  repeat' split
  · exact countAgent_owedWait h _
  · exact enterIntake_owedWait h l f _
  · exact countAgent_owedWait h _
  · exact enterIntake_owedWait h l f _
  · exact raiseDevice_owedWait (countAgent_owedWait h _) _

theorem countRx_leavesMarks (l : Lane) (c : RxCounter) (k : Nat) (s : State) : LeavesMarks s (countRx l c k s) :=
  ⟨rfl, rfl, rfl⟩

theorem acceptFrame_owedWait (h : OwedMarksWait s) (l : Lane) (f : Bytes) : OwedMarksWait (acceptFrame l f s) := by
  have h₁ := (countRx_leavesMarks l .acceptedBytes f.length _).owedWait
    ((countRx_leavesMarks l .acceptedFrames 1 s).owedWait h)
  unfold acceptFrame; simp only; split
  · exact agentArrival_owedWait ((countRx_leavesMarks l .controlFrames 1 _).owedWait h₁) l f
  · unfold admitData; split
    · exact (setRx_leavesMarks _ _ _).owedWait h₁
    · exact (countRx_leavesMarks _ _ _ _).owedWait h₁

theorem trunkArrival_owedWait (h : OwedMarksWait s) (l : Lane) (rx : RxFrame) : OwedMarksWait (trunkArrival l rx s) := by
  unfold trunkArrival; split
  · exact (countRx_leavesMarks _ _ _ _).owedWait h
  · split
    · exact acceptFrame_owedWait h _ _
    · exact (countRx_leavesMarks _ _ _ _).owedWait h
    · exact (countRx_leavesMarks _ _ _ _).owedWait h

theorem relayFrame_owedWait (h : OwedMarksWait s) (l : Lane) (f : Bytes) : OwedMarksWait (relayFrame l f s) := by
  have counted : OwedMarksWait (countMerge l .relayDrops s) := (setMerge_leavesMarks _ _ _).owedWait h
  unfold relayFrame; simp only
  split
  · exact counted
  · split
    · exact (setMerge_leavesMarks _ _ _).owedWait h
    · exact raiseDevice_owedWait counted _

theorem campusArrival_owedWait (h : OwedMarksWait s) (l : Lane) (rx : RxFrame) : OwedMarksWait (campusArrival l rx s) := by
  unfold campusArrival; split
  · exact relayFrame_owedWait h l _
  · exact (setMerge_leavesMarks _ _ _).owedWait h

/-! ### Events at a context record (R33, R55, R60, R79) -/

theorem admissionRequest_owedWait (h : OwedMarksWait s) (l : Lane) : OwedMarksWait (admissionRequest l s) := by
  unfold admissionRequest; split
  · exact h
  · next q _ =>
    have h₁ := reportRises_owedWait ((decideAdmission_event q s).owedWait (decideAdmission_enables q s) h) q.ctx s
    exact departNew_owedWait (((takeAnswer_leavesMarks _ _ _ _).trans (laneTake_leavesMarks _ _)).owedWait h₁) _

/-- A drop counted at its context (R33, R187). -/
theorem dropCounted_owedWait (h : OwedMarksWait s) (s₀ : State) (c : CtxIx) {r : Ctx} (ho : r.owed = (s.ctx c).owed)
    (he : r.enables = (s.ctx c).enables) : OwedMarksWait (departNew s₀ (reportRises c s₀ (s.setCtx c r))) :=
  departNew_owedWait (reportRises_owedWait (h.setCtx_same ho he) _ _) _

theorem flushDropReport_owedWait (h : OwedMarksWait s) (n : Nat) : OwedMarksWait (flushDropReport n s) := by
  have taken := fun x => (setTransit_leavesMarks s x).owedWait h
  unfold flushDropReport; split
  · exact h
  · simp only; split
    · exact dropCounted_owedWait (taken _) s _ (Ctx.count_owed _ _ _) (Ctx.count_enables _ _ _)
    · exact taken _

theorem queueDropReport_owedWait (h : OwedMarksWait s) (n : Nat) : OwedMarksWait (queueDropReport n s) := by
  have taken := fun x => (setTransit_leavesMarks s x).owedWait h
  unfold queueDropReport; split
  · exact h
  · simp only; split
    · exact dropCounted_owedWait (taken _) s _ (Ctx.count_owed _ _ _) (Ctx.count_enables _ _ _)
    · exact taken _

theorem switchCtx_owedWait (h : OwedMarksWait s) (c : CtxIx) : OwedMarksWait (switchCtx c s) :=
  (switchCtx_event c s).owedWait (switchCtx_enables c s) h

theorem takeResult_owedWait (h : OwedMarksWait s) (r : DataResult) : OwedMarksWait (takeResult r s) := by
  have stored : ∀ k x ks, OwedMarksWait ((s.setSlot k x).setKs ks) := fun k x ks =>
    (setKs_leavesMarks (s.setSlot k x) ks).owedWait ((setKs_leavesMarks s _).owedWait h)
  unfold takeResult; split
  · exact h
  · split
    · exact stored _ _ _
    · split
      · have bound : ∀ k x ks, OwedMarksWait (((s.setSlot k x).setKs ks).setCtx r.ctx
            (({ s.ctx r.ctx with next := some (r.slot, .ready) } : Ctx).raise .nextReady)) := fun k x ks =>
          (stored k x ks).setCtx_same rfl rfl
        unfold bindSuccess; simp only; split
        · exact switchCtx_owedWait (bound _ _ _) _
        · exact bound _ _ _
      · exact (stored _ _ _).setCtx_same rfl rfl

theorem dataResult_owedWait (h : OwedMarksWait s) (n : Nat) : OwedMarksWait (dataResult n s) := by
  unfold dataResult; split
  · exact h
  · have taken := fun x => (setTransit_leavesMarks s x).owedWait h
    exact departNew_owedWait (reportRises_owedWait (takeResult_owedWait (taken _) _) _ _) _

theorem ageSoft_enables (c : CtxIx) (s : State) : ((ageSoft c s).ctx c).enables = (s.ctx c).enables := by
  unfold ageSoft; simp only; split
  · exact softCrossing_enables _ _
  · rfl

theorem ageHard_enables (c : CtxIx) (s : State) : ((ageHard c s).ctx c).enables = (s.ctx c).enables := by
  unfold ageHard; simp only; split
  · exact hardEvent_enables _ _
  · rfl

theorem ageVisit_owedWait (h : OwedMarksWait s) (c : CtxIx) (inc : Nat) : OwedMarksWait (ageVisit c inc s) := by
  have aged : ((s.setCtx c (agedRecord (s.ctx c) inc)).ctx c).enables = (s.ctx c).enables := by
    rw [State.setCtx_ctx_same, agedRecord_enables]
  unfold ageVisit; split
  · exact reportRises_owedWait ((visit_event c inc s).owedWait
      ((ageHard_enables _ _).trans ((ageSoft_enables _ _).trans aged)) h) _ _
  · exact h

/-! ### The Age Timer (R136 to R146) -/

theorem ageTick_owedWait (h : OwedMarksWait s) : OwedMarksWait (ageTick s) := by
  have stored := fun a => (setAge_leavesMarks s a).owedWait h
  unfold ageTick; split
  · exact stored _
  · split
    · exact raiseDevice_owedWait (stored _) _
    · exact raiseDevice_owedWait (stored _) _

theorem countStep_owedWait (h : OwedMarksWait s) : OwedMarksWait (countStep s) := by
  unfold countStep; split
  · exact (setAge_leavesMarks _ _).owedWait h
  · exact ageTick_owedWait ((setAge_leavesMarks _ _).owedWait h)

theorem referenceTick_owedWait (h : OwedMarksWait s) : OwedMarksWait (referenceTick s) := by
  unfold referenceTick; split
  · exact (setAge_leavesMarks _ _).owedWait h
  · exact countStep_owedWait ((setAge_leavesMarks _ _).owedWait h)

theorem whenEnabled_owedWait (h : OwedMarksWait s) {f : State → State} (hf : OwedMarksWait (f s)) :
    OwedMarksWait (whenEnabled f s) := by
  unfold whenEnabled; split
  · exact departNew_owedWait hf _
  · exact h

theorem closeVisit_leavesMarks (place : Option Nat) (s : State) : LeavesMarks s (closeVisit place s) := by
  cases place <;> exact ⟨rfl, rfl, rfl⟩

theorem sweepVisit_owedWait (h : OwedMarksWait s) : OwedMarksWait (sweepVisit s) := by
  unfold sweepVisit; split
  · exact h
  · have visited := ageVisit_owedWait ((drawn_leavesMarks s).owedWait h)
    exact departNew_owedWait ((closeVisit_leavesMarks _ _).owedWait (visited _ _)) _

theorem abandonPass_leavesMarks (s : State) : LeavesMarks s (abandonPass s) := ⟨rfl, rfl, rfl⟩

end Sys2Proof.Machine
end

section
/-! The owed marks (O7): the Key Store, zeroize, reset, restart, the station commands, and the step. -/

namespace Sys2Proof.Machine

variable {s t : State}

/-! ### The Key Store (R65 to R86) -/

theorem startJobs_leavesMarks (s : State) : LeavesMarks s (startJobs s) := by
  rw [startJobs_frame]; exact ⟨rfl, rfl, rfl⟩

theorem queueJob_leavesMarks (j : Job) (s : State) : LeavesMarks s (queueJob j s) :=
  (setKs_leavesMarks s _).trans (startJobs_leavesMarks _)

theorem failData_leavesMarks (k : SlotIx) (c : CtxIx) (g : Gen) (cause : UnwrapCause) (s : State) :
    LeavesMarks s (failData k c g cause s) := ⟨rfl, rfl, rfl⟩

theorem dataSuccess_leavesMarks (k : SlotIx) (c : CtxIx) (g : Gen) (key : Key) (s : State) :
    LeavesMarks s (dataSuccess k c g key s) := by
  unfold dataSuccess; simp only; split <;> exact ⟨rfl, rfl, rfl⟩

theorem answerJob_owedWait (h : OwedMarksWait s) (s₀ : State) (n : Nat) (st : Status) (body : Bytes) :
    OwedMarksWait (answerJob s₀ n st body s) := by
  unfold answerJob; split
  · exact answer_owedWait h _ _ _ _
  · exact h

theorem finishJob_owedWait (h : OwedMarksWait s) (s₀ : State) (j : Job) (res : Option Key) :
    OwedMarksWait (finishJob s₀ j res s) := by
  have started : ∀ {u}, LeavesMarks s u → OwedMarksWait (startJobs u) := fun k =>
    (k.trans (startJobs_leavesMarks _)).owedWait h
  have stored : ∀ ks, OwedMarksWait (startJobs (s.setKs ks)) := fun ks => started (setKs_leavesMarks s ks)
  unfold finishJob
  split
  · exact started (dataSuccess_leavesMarks _ _ _ _ _)
  · exact started (failData_leavesMarks _ _ _ _ _)
  all_goals exact answerJob_owedWait (stored _) _ _ _ _

theorem jobComplete_owedWait (h : OwedMarksWait s) : OwedMarksWait (jobComplete s) := by
  unfold jobComplete; split
  · exact h
  · exact finishJob_owedWait ((setKs_leavesMarks _ _).owedWait h) _ _ _

/-- The report of the Key Store reaches a restart past its fifth step, and leaves the step. -/
theorem reportSlotsFree_owedWait (h : OwedMarksWait s) : OwedMarksWait (reportSlotsFree s) := by
  have reported : ∀ {c : Command} {step free}, s.agent.progress = some c → c.stage = .restart step free →
      OwedMarksWait (if s.ks.freeSlots = slotCount then setStage c (.restart step true) s else s) := fun hc hs => by
    split
    · exact setStage_owedWait h _ fun hp => by rw [Agent.pastContexts_some hc, hs]; exact hp
    · exact h
  unfold reportSlotsFree
  split
  · exact h
  · next hc =>
    split
    · next hs => exact reported hc hs
    · next hs => exact reported hc hs
    · next hs => exact reported hc hs
    · next hs => exact reported hc hs
    · exact h

theorem scrubComplete_owedWait (h : OwedMarksWait s) (k : SlotIx) : OwedMarksWait (scrubComplete k s) := by
  unfold scrubComplete; split
  · exact reportSlotsFree_owedWait (((setKs_leavesMarks s _).trans (setKs_leavesMarks _ _)).owedWait h)
  · exact h

/-! ### ZEROIZE_N (R42, R83, R159) and device reset -/

theorem withdrawReport_owedWait (h : OwedMarksWait s) : OwedMarksWait (withdrawReport s) := by
  unfold withdrawReport; split
  · exact h
  · next hc =>
    split
    · next hs => exact setStage_owedWait h _ fun hp => by rw [Agent.pastContexts_some hc, hs]; exact hp
    · exact h

theorem keyStoreZeroize_owedWait (h : OwedMarksWait s) : OwedMarksWait (keyStoreZeroize s) := by
  have zeroized := fun x => ((setKs_leavesMarks s (zeroizedStore s.ks)).trans (setTransit_leavesMarks _ x)).owedWait h
  exact departNew_owedWait (raiseDevice_owedWait (raiseDevice_owedWait (withdrawReport_owedWait (zeroized _)) _) _) _

theorem zeroizedRecord_marks (r : Ctx) : (zeroizedRecord r).owed = r.owed ∧ (zeroizedRecord r).enables = r.enables := by
  unfold zeroizedRecord; split <;> exact ⟨rfl, rfl⟩

theorem contextZeroize_owedWait (h : OwedMarksWait s) : OwedMarksWait (contextZeroize s) := by
  have hx : ∀ c, (contextZeroize s).ctx c = zeroizedRecord (s.ctx c) := fun c => look_every _ _ _
  refine h.congr rfl rfl (fun c => ?_) id (fun _ c he => ?_)
  · rw [hx]; exact (zeroizedRecord_marks _).1
  · rw [hx]; exact (zeroizedRecord_marks _).2.trans he

theorem agentZeroize_owedWait (h : OwedMarksWait s) : OwedMarksWait (agentZeroize s) := by
  have emptied : OwedMarksWait (s.setAgent (({ s.agent with intake := [] } : Agent).count .zeroizeDiscards
      s.agent.intake.length)) := h.setAgent id
  unfold agentZeroize; simp only; split
  · exact emptied
  · split
    · exact settle_owedWait (abandon_owedWait emptied _) _
    · exact emptied

theorem jobDiscardReport_owedWait (h : OwedMarksWait s) (n : Nat) : OwedMarksWait (jobDiscardReport n s) := by
  unfold jobDiscardReport; split
  · exact h
  · have taken := fun x => (setTransit_leavesMarks s x).owedWait h
    simp only; split
    · exact taken _
    · exact settle_owedWait (abandon_owedWait (taken _) _) _

theorem deviceReset_owedWait (p : Lane) (m z : Bool) (s : State) : OwedMarksWait (deviceReset p m z s) := by
  have reset : LeavesMarks State.reset
      { State.reset with provLane := p, mkOnce := m, draws := s.draws, pending := s.pending } := ⟨rfl, rfl, rfl⟩
  unfold deviceReset; simp only; split
  · exact raiseDevice_owedWait ((reset.trans (setKs_leavesMarks _ _)).owedWait reset_owedMarksWait) _
  · exact reset.owedWait reset_owedMarksWait

/-! ### Datapath Restart (R173) -/

theorem restartAt_pastContexts {c : Command} {step : RestartStep} {free : Bool} (h : restartAt s = some (c, step, free)) :
    s.agent.pastContexts = step.afterContexts := by
  rw [Agent.pastContexts_some (restartAt_progress h)]
  unfold restartAt at h
  split at h
  · cases h
  · split at h
    · next hs => cases h; rw [hs]; rfl
    · cases h

/-- A restart past its third step goes on. -/
theorem restart_goesOn {c : Command} {step : RestartStep} {free : Bool} (hc : restartAt s = some (c, step, free))
    (hp : step.afterContexts = true) (k : LeavesMarks s t) (h : OwedMarksWait s) (st : Stage) :
    OwedMarksWait (setStage c st t) :=
  setStage_owedWait (k.owedWait h) c fun _ => by rw [k.agent, restartAt_pastContexts hc]; exact hp

theorem restartSelector_owedWait (h : OwedMarksWait s) : OwedMarksWait (restartSelector s) := by
  unfold restartSelector; split
  · exact setStage_owedWait ((setSelector_leavesMarks _ _).owedWait h) _ nofun
  · exact h

theorem laneFlush_owedWait (h : OwedMarksWait s) (l : Lane) (cause : FlushCause) : OwedMarksWait (laneFlush l cause s) := by
  have flushed := fun restart => (flushLane_leavesMarks l restart s).owedWait h
  unfold laneFlush; split
  · exact flushed _
  · split
    · exact h
    · exact setStage_owedWait (flushed _) _ (by split <;> exact nofun)

/-- The third step clears every mark and every enable of a context (R41). -/
theorem restartContexts_quiet (s : State) : ContextsQuiet (restartContexts s) := fun c => by
  rw [restartContexts_ctx]; exact ⟨rfl, rfl⟩

theorem restartContextStep_owedWait (h : OwedMarksWait s) : OwedMarksWait (restartContextStep s) := by
  unfold restartContextStep; split
  · split
    · exact h
    · have quiet := restartContexts_quiet s
      exact owedMarksWait_iff.2 ⟨h.bound, fun m => m.elim h.device fun ⟨c, hc⟩ => absurd (quiet c).1 hc,
        fun _ => quiet⟩
  · exact h

theorem restartJobs_owedWait (h : OwedMarksWait s) : OwedMarksWait (restartJobs s) := by
  unfold restartJobs; split
  · next hc => exact restart_goesOn hc rfl (setKs_leavesMarks _ _) h _
  · exact h

theorem restartSlots_owedWait (h : OwedMarksWait s) : OwedMarksWait (restartSlots s) := by
  unfold restartSlots; split
  · next hc => exact restart_goesOn hc rfl (setKs_leavesMarks _ _) h _
  · exact h

theorem restartCampus_owedWait (h : OwedMarksWait s) (l : Lane) : OwedMarksWait (restartCampus l s) := by
  unfold restartCampus; split
  · next hc =>
    split
    · exact restart_goesOn hc rfl (setCampus_leavesMarks _ _ _) h _
    · exact h
  · exact h

theorem restartAge_owedWait (h : OwedMarksWait s) : OwedMarksWait (restartAge s) := by
  unfold restartAge; split
  · next hc => exact restart_goesOn hc rfl (abandonPass_leavesMarks _) h _
  · exact h

/-- The eighth step empties the Notice Queue and the device's marks, and no context has one since the third (R41, R193). -/
theorem restartNotice_owedWait (h : OwedMarksWait s) : OwedMarksWait (restartNotice s) := by
  unfold restartNotice; split
  · next hc =>
    have quiet : ContextsQuiet s := h.quiet (restartAt_pastContexts hc)
    exact owedMarksWait_iff.2 ⟨Nat.zero_le _, fun m => m.elim (absurd rfl) fun ⟨c, hc⟩ => absurd (quiet c).1 hc,
      fun _ => quiet⟩
  · exact h

theorem restartReport_owedWait (h : OwedMarksWait s) : OwedMarksWait (restartReport s) := by
  unfold restartReport; split
  · exact answer_owedWait h _ _ _ _
  · exact h

/-! ### Station commands: what each does at its owner -/

theorem mgmtKeySet_owedWait (h : OwedMarksWait s) (c : Command) : (mgmtKeySet c s).OwedWait := by
  refine refuseIf_owedWait ?_ _ _
  split
  · exact refuseIf_owedWait (.done ((setKs_leavesMarks _ _).owedWait h)) _ _
  · refine refuseIf_owedWait (refuseIf_owedWait (refuseIf_owedWait ?_ _ _) _ _) _ _
    exact ⟨(queueJob_leavesMarks _ _).owedWait h, rfl⟩

theorem sweepRangeSet_owedWait (h : OwedMarksWait s) (c : Command) : (sweepRangeSet c s).OwedWait := by
  unfold sweepRangeSet; split
  · exact .done ((setAge_leavesMarks _ _).owedWait h)
  · trivial

theorem timeBaseSet_owedWait (h : OwedMarksWait s) (c : Command) : (timeBaseSet c s).OwedWait :=
  refuseIf_owedWait (.done ((setAge_leavesMarks _ _).owedWait h)) _ _

theorem laneSet_owedWait (h : OwedMarksWait s) (c : Command) : (laneSet c s).OwedWait := by
  unfold laneSet; simp only; split
  · trivial
  · exact .done ((setCampus_leavesMarks _ _ _).owedWait h)

theorem laneCountersRead_owedWait (h : OwedMarksWait s) (c : Command) : (laneCountersRead c s).OwedWait := by
  unfold laneCountersRead; split
  · trivial
  · exact refuseIf_owedWait (.waits h rfl) _ _

theorem noticeRouteSet_owedWait (h : OwedMarksWait s) (c : Command) : (noticeRouteSet c s).OwedWait := by
  have routed : ∀ r, OwedMarksWait (s.setNotice { s.notice with route := r }) := fun _ => h.setNotice rfl rfl
  unfold noticeRouteSet; simp only; split
  · exact routed _
  · split
    · trivial
    · exact routed _

theorem noticeEnableSet_owedWait (h : OwedMarksWait s) (c : Command) : (noticeEnableSet c s).OwedWait := by
  have enabled : ∀ m e, OwedMarksWait (s.setNotice { s.notice with master := m, enables := e }) := fun _ _ =>
    h.setNotice rfl rfl
  exact refuseIf_owedWait (.done (enabled _ _)) _ _

theorem attentionClear_owedWait (h : OwedMarksWait s) (c : Command) : (attentionClear c s).OwedWait := by
  have cleared : ∀ f, OwedMarksWait (s.setNotice { s.notice with flags := f }) := fun _ => h.setNotice rfl rfl
  unfold attentionClear; simp only; split
  · exact refuseIf_owedWait (.done (cleared _)) _ _
  · split
    · trivial
    · exact h.setCtx_same rfl rfl

theorem setEntry_leavesMarks (s : State) (e : SelIx) (x : SelEntry) : LeavesMarks s (s.setEntry e x) := ⟨rfl, rfl, rfl⟩

theorem selectorWrite_owedWait (h : OwedMarksWait s) (c : Command) : (selectorWrite c s).OwedWait := by
  unfold selectorWrite; simp only; split
  · trivial
  · repeat refine refuseIf_owedWait ?_ _ _
    exact .done ((setEntry_leavesMarks _ _ _).owedWait h)

theorem selectorInvalidate_owedWait (h : OwedMarksWait s) (c : Command) : (selectorInvalidate c s).OwedWait := by
  unfold selectorInvalidate; split
  · trivial
  · exact .done ((setEntry_leavesMarks _ _ _).owedWait h)

theorem selectorRead_owedWait (h : OwedMarksWait s) (c : Command) : (selectorRead c s).OwedWait := by
  unfold selectorRead; split
  · trivial
  · exact refuseIf_owedWait (.done ((setEntry_leavesMarks _ _ _).owedWait h)) _ _

theorem defaultActionSet_owedWait (h : OwedMarksWait s) (c : Command) : (defaultActionSet c s).OwedWait :=
  refuseIf_owedWait (.done ((setSelector_leavesMarks _ _).owedWait h)) _ _

/-- CONTEXT_DEFINE gives a record its enables, at a time when no restart is past its third step. -/
theorem contextDefine_owedWait (h : OwedMarksWait s) (c : Command) (hp : s.agent.pastContexts = false) :
    (contextDefine c s).OwedWait := by
  unfold contextDefine; simp only; split
  · trivial
  · next x _ =>
    have defined : OwedMarksWait (s.setCtx x (definedRecord (s.ctx x) (cmdBody c))) :=
      h.setCtx rfl fun p => absurd (hp.symm.trans p) Bool.false_ne_true
    exact refuseIf_owedWait (refuseIf_owedWait (.done defined) _ _) _ _

theorem reevaluateHard_enables (c : CtxIx) (s : State) : ((reevaluateHard c s).ctx c).enables = (s.ctx c).enables := by
  unfold reevaluateHard; split
  · exact hardEvent_enables _ _
  · rfl

theorem reevaluate_enables (c : CtxIx) (s : State) : ((reevaluate c s).ctx c).enables = (s.ctx c).enables := by
  unfold reevaluate; simp only; repeat' split
  · exact softCrossing_enables _ _
  · exact (reevaluateHard_enables _ _).trans (softCrossing_enables _ _)
  · exact reevaluateHard_enables _ _

theorem modifyCtx_owedWait (h : OwedMarksWait s) (c : CtxIx) (b : Bytes) : OwedMarksWait (modifyCtx c b s) := by
  have stored : OwedMarksWait (s.setCtx c (modifiedRecord (s.ctx c) b)) := h.setCtx_same rfl rfl
  unfold modifyCtx; simp only; split
  · exact reportRises_owedWait ((reevaluate_event c _).owedWait (reevaluate_enables c _) stored) _ _
  · exact stored

theorem contextModify_owedWait (h : OwedMarksWait s) (c : Command) : (contextModify c s).OwedWait := by
  unfold contextModify; simp only; split
  · trivial
  · have modified := fun x => modifyCtx_owedWait h x (cmdBody c)
    exact refuseIf_owedWait (refuseIf_owedWait (.done (modified _)) _ _) _ _

theorem releaseRef_leavesMarks (k : Option SlotIx) (c : CtxIx) (g : Gen) (s : State) :
    LeavesMarks s (releaseRef k c g s) := by
  rw [releaseRef_frame]; exact ⟨rfl, rfl, rfl⟩

/-- CONTEXT_CLEAR clears the enables of a record and leaves its owed marks (R32). -/
theorem clearCtx_owedWait (h : OwedMarksWait s) (c : CtxIx) : OwedMarksWait (clearCtx c s) := by
  have k : LeavesMarks s (releaseNext c (releaseRef (s.ctx c).current c (s.ctx c).generation s)) :=
    (releaseRef_leavesMarks _ _ _ _).trans (releaseRef_leavesMarks _ _ _ _)
  exact (k.owedWait h).setCtx (by rw [k.ctx]; rfl) (fun _ _ => rfl)

theorem contextClear_owedWait (h : OwedMarksWait s) (c : Command) : (contextClear c s).OwedWait := by
  unfold contextClear; split
  · trivial
  · exact refuseIf_owedWait (.done (clearCtx_owedWait h _)) _ _

theorem contextRead_owedWait (h : OwedMarksWait s) (c : Command) : (contextRead c s).OwedWait := by
  unfold contextRead; split
  · trivial
  · exact h

theorem withFlag_owed (r : Ctx) (n : Nat) (v : Bool) : (withFlag r n v).owed = r.owed := by
  unfold withFlag; repeat' split
  all_goals rfl

/-- CONTEXT_FLAG may set an enable, at a time when no restart is past its third step. -/
theorem contextFlag_owedWait (h : OwedMarksWait s) (c : Command) (hp : s.agent.pastContexts = false) :
    (contextFlag c s).OwedWait := by
  unfold contextFlag; simp only; split
  · trivial
  · next x _ =>
    have flagged : ∀ n v, OwedMarksWait (s.setCtx x (withFlag (s.ctx x) n v)) := fun n v =>
      h.setCtx (withFlag_owed _ _ _) fun p => absurd (hp.symm.trans p) Bool.false_ne_true
    exact refuseIf_owedWait (refuseIf_owedWait (.done (flagged _ _)) _ _) _ _

theorem contextCountersRead_owedWait (h : OwedMarksWait s) (c : Command) : (contextCountersRead c s).OwedWait := by
  unfold contextCountersRead; simp only; split
  · trivial
  · next x _ =>
    have read : ∀ cs, OwedMarksWait (s.setCtx x { s.ctx x with counters := cs }) := fun _ => h.setCtx_same rfl rfl
    exact refuseIf_owedWait (.done (read _)) _ _

theorem kekLoad_owedWait (h : OwedMarksWait s) (c : Command) : (kekLoad c s).OwedWait := by
  unfold kekLoad; simp only; split
  · trivial
  · refine refuseIf_owedWait (refuseIf_owedWait (refuseIf_owedWait ?_ _ _) _ _) _ _
    exact ⟨(queueJob_leavesMarks _ _).owedWait h, rfl⟩

theorem kekErase_owedWait (h : OwedMarksWait s) (c : Command) : (kekErase c s).OwedWait := by
  unfold kekErase; split
  · trivial
  · exact .done ((setKs_leavesMarks _ _).owedWait h)

theorem reserve_owedWait (h : OwedMarksWait s) (c : CtxIx) (kek : KekIx) (salt : BitVec 32) (wrapped : Bytes) (k : SlotIx) :
    OwedMarksWait (reserve c kek salt wrapped k s) := by
  have stored : ∀ x ks, OwedMarksWait ((s.setSlot k x).setKs ks) := fun x ks =>
    (setKs_leavesMarks (s.setSlot k x) ks).owedWait ((setKs_leavesMarks s _).owedWait h)
  have named : ∀ x ks, OwedMarksWait (((s.setSlot k x).setKs ks).setCtx c { s.ctx c with next := some (k, .pending) }) :=
    fun x ks => (stored x ks).setCtx_same rfl rfl
  have queued := fun x ks j => (queueJob_leavesMarks j _).owedWait (named x ks)
  unfold reserve poolCheck; simp only; split
  · exact raiseDevice_owedWait (queued _ _ _) _
  · exact queued _ _ _

theorem keyLoad_owedWait (h : OwedMarksWait s) (c : Command) : (keyLoad c s).OwedWait := by
  unfold keyLoad; simp only; split
  · repeat refine refuseIf_owedWait ?_ _ _
    split
    · trivial
    · exact reserve_owedWait h _ _ _ _ _
  · trivial

theorem nextDiscard_owedWait (h : OwedMarksWait s) (c : Command) : (nextDiscard c s).OwedWait := by
  have released : ∀ x, LeavesMarks s (releaseNext x s) := fun x => releaseRef_leavesMarks _ _ _ _
  have discarded : ∀ x, OwedMarksWait (discardNext x s) := fun x =>
    ((released x).owedWait h).setCtx_same (by rw [(released x).ctx]) (by rw [(released x).ctx])
  unfold nextDiscard; split
  · trivial
  · exact refuseIf_owedWait (.done (discarded _)) _ _

theorem pendSwitch_owedWait (h : OwedMarksWait s) (c : CtxIx) : OwedMarksWait (pendSwitch c s) := h.setCtx_same rfl rfl

theorem requestSwitch_owedWait (h : OwedMarksWait s) (c : CtxIx) : OwedMarksWait (requestSwitch c s) := by
  unfold requestSwitch; split
  · exact reportRises_owedWait (switchCtx_owedWait h c) _ _
  · exact pendSwitch_owedWait h c

theorem switchRequest_owedWait (h : OwedMarksWait s) (c : Command) : (switchRequest c s).OwedWait := by
  unfold switchRequest; split
  · trivial
  · exact refuseIf_owedWait (.done (requestSwitch_owedWait h _)) _ _

theorem groupSwitch_owedWait (h : OwedMarksWait s) (c : Command) : (groupSwitch c s).OwedWait := by
  unfold groupSwitch; simp only; split
  · trivial
  · refine refuseIf_owedWait ?_ _ _
    cases (groupMembers _ s).isEmpty
    · exact .waits h rfl
    · exact .done h

/-! ### Station commands that go on (R155) -/

theorem statusGathered_owedWait (h : OwedMarksWait s) (c : Command) (k a g e n : Option Bytes) :
    OwedMarksWait (statusGathered c k a g e n s) := by
  unfold statusGathered; split
  · exact answer_owedWait h _ _ _ _
  · exact setStage_owedWait h _ nofun

theorem statusSnapshot_owedWait (h : OwedMarksWait s) (b : StatusBlock) : OwedMarksWait (statusSnapshot b s) := by
  unfold statusSnapshot; split
  · exact h
  · split
    · cases b <;> exact statusGathered_owedWait h _ _ _ _ _ _
    · exact h

theorem laneGathered_owedWait (h : OwedMarksWait s) (s₀ : State) (c : Command) (l : Lane) (clear : Bool)
    (r p q m : Option Bytes) : OwedMarksWait (laneGathered s₀ c l clear r p q m s) := by
  unfold laneGathered; split
  · exact answer_owedWait h _ _ _ _
  · exact setStage_owedWait h _ nofun

theorem laneSnapshot_owedWait (h : OwedMarksWait s) (b : LaneBlock) : OwedMarksWait (laneSnapshot b s) := by
  unfold laneSnapshot; split
  · exact h
  · split
    · split
      · exact laneGathered_owedWait ((setRx_leavesMarks _ _ _).owedWait h) _ _ _ _ _ _ _ _
      · exact laneGathered_owedWait ((setCipher_leavesMarks _ _ _).owedWait h) _ _ _ _ _ _ _ _
      · exact laneGathered_owedWait ((setCampus_leavesMarks _ _ _).owedWait h) _ _ _ _ _ _ _ _
      · exact laneGathered_owedWait ((setMerge_leavesMarks _ _ _).owedWait h) _ _ _ _ _ _ _ _
      · exact h
    · exact h

theorem groupGoesOn_owedWait (h : OwedMarksWait s) (s₀ : State) (c : Command) (g : Fin 16) (hold : Bool) (left : List CtxIx)
    (x y z : Nat) : OwedMarksWait (groupGoesOn s₀ c g hold left x y z s) := by
  unfold groupGoesOn; split
  · exact answer_owedWait h _ _ _ _
  · refine departNew_owedWait (setStage_owedWait h _ ?_) _
    nofun

theorem groupSwitchRequest_owedWait (h : OwedMarksWait s) (c : CtxIx) : OwedMarksWait (groupSwitchRequest c s) := by
  unfold groupSwitchRequest; split
  · exact h
  · split
    · split
      · simp only; split
        · split
          · exact groupGoesOn_owedWait (reportRises_owedWait (switchCtx_owedWait h c) _ _) _ _ _ _ _ _ _ _
          · split
            · exact groupGoesOn_owedWait (pendSwitch_owedWait h c) _ _ _ _ _ _ _ _
            · exact groupGoesOn_owedWait h _ _ _ _ _ _ _ _
        · exact groupGoesOn_owedWait h _ _ _ _ _ _ _ _
      · exact h
    · exact h

/-! ### Every command, and the step -/

theorem exec_owedWait (h : OwedMarksWait s) (i : Instr) : ∃ t, exec i s = .next t ∧ OwedMarksWait t := by
  cases i with
  | deviceReset p m z => exact ⟨_, rfl, deviceReset_owedWait p m z s⟩
  | trunkFrameTaken l rx => exact ⟨_, rfl, settle_owedWait (trunkArrival_owedWait h l rx) _⟩
  | selectorLookup l => exact ⟨_, rfl, (selectorLookup_leavesMarks l s).owedWait h⟩
  | laneFrameTake l => exact ⟨_, rfl, (laneTake_leavesMarks l s).owedWait h⟩
  | admissionRequest l => exact ⟨_, rfl, admissionRequest_owedWait h l⟩
  | passRecordCompletion l => exact ⟨_, rfl, (passCompletion_leavesMarks l s).owedWait h⟩
  | protectRecordCompletion l => exact ⟨_, rfl, (protectCompletion_leavesMarks l s).owedWait h⟩
  | inFlightDecrease k c g => exact ⟨_, rfl, (inFlightDecrease_leavesMarks k c g s).owedWait h⟩
  | flushDropReport n => exact ⟨_, rfl, flushDropReport_owedWait h n⟩
  | queueDropReport n => exact ⟨_, rfl, queueDropReport_owedWait h n⟩
  | laneDropReport n => exact ⟨_, rfl, (laneDropReport_leavesMarks n s).owedWait h⟩
  | campusTransmitStart l => exact ⟨_, rfl, (setCampus_leavesMarks s l _).owedWait h⟩
  | campusTransmitEnd l => exact ⟨_, rfl, (setCampus_leavesMarks s l _).owedWait h⟩
  | campusLinkDown l => exact ⟨_, rfl, (setCampus_leavesMarks s l _).owedWait h⟩
  | campusLinkUp l => exact ⟨_, rfl, (setCampus_leavesMarks s l _).owedWait h⟩
  | unwrapJobStart => exact ⟨_, rfl, (startJobs_leavesMarks s).owedWait h⟩
  | unwrapJobComplete => exact ⟨_, rfl, jobComplete_owedWait h⟩
  | dataResult n => exact ⟨_, rfl, dataResult_owedWait h n⟩
  | scrubComplete k => exact ⟨_, rfl, scrubComplete_owedWait h k⟩
  | referenceTick => exact ⟨_, rfl, whenEnabled_owedWait h (referenceTick_owedWait h)⟩
  | countStep => exact ⟨_, rfl, whenEnabled_owedWait h (countStep_owedWait h)⟩
  | ageTick => exact ⟨_, rfl, whenEnabled_owedWait h (ageTick_owedWait h)⟩
  | passStart => exact ⟨_, rfl, (setAge_leavesMarks s _).owedWait h⟩
  | sweepVisit => exact ⟨_, rfl, sweepVisit_owedWait h⟩
  | commandBegin => exact ⟨_, rfl, settle_owedWait h _⟩
  | identify => exact ⟨_, rfl, takeCommand_owedWait h _ fun _ _ => h⟩
  | deviceStatusRead =>
    refine ⟨_, rfl, takeCommand_owedWait h _ fun c _ => ?_⟩
    split <;> exact .waits h rfl
  | statusSnapshot b => exact ⟨_, rfl, statusSnapshot_owedWait h b⟩
  | mgmtKeySet => exact ⟨_, rfl, takeCommand_owedWait h _ fun c _ => mgmtKeySet_owedWait h c⟩
  | deviceAddressSet => exact ⟨_, rfl, takeCommand_owedWait h _ fun _ _ => h.setAgent id⟩
  | envelopeTypeSet =>
    refine ⟨_, rfl, takeCommand_owedWait h _ fun _ _ => refuseIf_owedWait ?_ _ _⟩
    exact h.setAgent id
  | timeBaseSet => exact ⟨_, rfl, takeCommand_owedWait h _ fun c _ => timeBaseSet_owedWait h c⟩
  | sweepRangeSet => exact ⟨_, rfl, takeCommand_owedWait h _ fun c _ => sweepRangeSet_owedWait h c⟩
  | laneSet => exact ⟨_, rfl, takeCommand_owedWait h _ fun c _ => laneSet_owedWait h c⟩
  | laneCountersRead => exact ⟨_, rfl, takeCommand_owedWait h _ fun c _ => laneCountersRead_owedWait h c⟩
  | laneSnapshot b => exact ⟨_, rfl, laneSnapshot_owedWait h b⟩
  | datapathRestart => exact ⟨_, rfl, takeCommand_owedWait h _ fun _ _ => ⟨h, rfl⟩⟩
  | restartSelectorClear => exact ⟨_, rfl, restartSelector_owedWait h⟩
  | laneFlush l cause => exact ⟨_, rfl, laneFlush_owedWait h l cause⟩
  | restartContexts => exact ⟨_, rfl, restartContextStep_owedWait h⟩
  | restartJobDiscard => exact ⟨_, rfl, restartJobs_owedWait h⟩
  | restartSlotScrub => exact ⟨_, rfl, restartSlots_owedWait h⟩
  | restartCampusDiscard l => exact ⟨_, rfl, restartCampus_owedWait h l⟩
  | restartAgeTimer => exact ⟨_, rfl, restartAge_owedWait h⟩
  | restartNoticeUnit => exact ⟨_, rfl, restartNotice_owedWait h⟩
  | restartSlotsFreeReport => exact ⟨_, rfl, restartReport_owedWait h⟩
  | noticeRouteSet => exact ⟨_, rfl, takeCommand_owedWait h _ fun c _ => noticeRouteSet_owedWait h c⟩
  | noticeEnableSet => exact ⟨_, rfl, takeCommand_owedWait h _ fun c _ => noticeEnableSet_owedWait h c⟩
  | attentionClear => exact ⟨_, rfl, takeCommand_owedWait h _ fun c _ => attentionClear_owedWait h c⟩
  | selectorWrite => exact ⟨_, rfl, takeCommand_owedWait h _ fun c _ => selectorWrite_owedWait h c⟩
  | selectorInvalidate => exact ⟨_, rfl, takeCommand_owedWait h _ fun c _ => selectorInvalidate_owedWait h c⟩
  | selectorRead => exact ⟨_, rfl, takeCommand_owedWait h _ fun c _ => selectorRead_owedWait h c⟩
  | defaultActionSet => exact ⟨_, rfl, takeCommand_owedWait h _ fun c _ => defaultActionSet_owedWait h c⟩
  | contextDefine => exact ⟨_, rfl, takeCommand_owedWait h _ fun c hp => contextDefine_owedWait h c hp⟩
  | contextModify => exact ⟨_, rfl, takeCommand_owedWait h _ fun c _ => contextModify_owedWait h c⟩
  | contextClear => exact ⟨_, rfl, takeCommand_owedWait h _ fun c _ => contextClear_owedWait h c⟩
  | contextRead => exact ⟨_, rfl, takeCommand_owedWait h _ fun c _ => contextRead_owedWait h c⟩
  | contextFlag => exact ⟨_, rfl, takeCommand_owedWait h _ fun c hp => contextFlag_owedWait h c hp⟩
  | contextCountersRead => exact ⟨_, rfl, takeCommand_owedWait h _ fun c _ => contextCountersRead_owedWait h c⟩
  | kekLoad => exact ⟨_, rfl, takeCommand_owedWait h _ fun c _ => kekLoad_owedWait h c⟩
  | kekErase => exact ⟨_, rfl, takeCommand_owedWait h _ fun c _ => kekErase_owedWait h c⟩
  | keyLoad => exact ⟨_, rfl, takeCommand_owedWait h _ fun c _ => keyLoad_owedWait h c⟩
  | nextDiscard => exact ⟨_, rfl, takeCommand_owedWait h _ fun c _ => nextDiscard_owedWait h c⟩
  | switchRequest => exact ⟨_, rfl, takeCommand_owedWait h _ fun c _ => switchRequest_owedWait h c⟩
  | groupSwitch => exact ⟨_, rfl, takeCommand_owedWait h _ fun c _ => groupSwitch_owedWait h c⟩
  | groupSwitchRequest c => exact ⟨_, rfl, groupSwitchRequest_owedWait h c⟩
  | keyStoreZeroize => exact ⟨_, rfl, keyStoreZeroize_owedWait h⟩
  | contextZeroize => exact ⟨_, rfl, contextZeroize_owedWait h⟩
  | ageTimerZeroize => exact ⟨_, rfl, (abandonPass_leavesMarks s).owedWait h⟩
  | agentZeroize => exact ⟨_, rfl, agentZeroize_owedWait h⟩
  | jobDiscardReport n => exact ⟨_, rfl, jobDiscardReport_owedWait h n⟩
  | zeroizeRelease => exact ⟨_, rfl, (setKs_leavesMarks s _).owedWait h⟩
  | campusFrameReceived l rx => exact ⟨_, rfl, departNew_owedWait (campusArrival_owedWait h l rx) _⟩
  | trunkTransmitStart l => exact ⟨_, rfl, (setMerge_leavesMarks s l _).owedWait h⟩
  | trunkTransmitEnd l => exact ⟨_, rfl, settle_owedWait ((setMerge_leavesMarks s l _).owedWait h) _⟩
  | trunkLinkDown l => exact ⟨_, rfl, settle_owedWait ((setMerge_leavesMarks s l _).owedWait h) _⟩
  | trunkLinkUp l => exact ⟨_, rfl, departNew_owedWait ((setMerge_leavesMarks s l _).owedWait h) _⟩
  | noticeDeparture => exact ⟨_, rfl, depart_owedWait h⟩

/-- Settles O7: `exec_owedWait`, at the command that the step takes from the front of the queue. -/
theorem owedMarksStayWaiting : Obligations.OwedMarksStayWaiting := by
  unfold Obligations.OwedMarksStayWaiting
  intro s t h ht
  cases hp : s.pending with
  | nil =>
    simp only [step, hp] at ht
    cases ht; exact h
  | cons c rest =>
    have k : LeavesMarks s { s with pending := rest } := ⟨rfl, rfl, rfl⟩
    obtain ⟨u, hu, hw⟩ := exec_owedWait (k.owedWait h) c
    simp only [step, hp, hu] at ht
    cases ht; exact hw

end Sys2Proof.Machine
end

section
/-! The step at a nonempty queue (O1). -/

namespace Sys2Proof.Machine

/-- Settles O1: the queue as given selects the second branch of `step`, which is the right side itself. -/
theorem stepTakesTheFrontCommand : Obligations.StepTakesTheFrontCommand := by
  unfold Obligations.StepTakesTheFrontCommand
  intro c rest s hp
  simp only [step, hp]

end Sys2Proof.Machine
end
